-- ==== Sys2Proof/Word.lean ====
section
/-! DEFINITION. The word of LCDSEQ's ports: every bus write, bus address, character code and request operand is 8 bits
(20_memory.md R35, 30_encoding.md R52, R56; 00_scope.md R10). -/

namespace Sys2Proof

/-- An 8-bit value, bit 0 least significant, unsigned (R11). -/
abbrev Byte := BitVec 8

end Sys2Proof
end

