-- ==== Sys2Proof/Config.lean ====
section
/-! DEFINITION. The parameters of the hardware (00_scope.md R6 to R10), fixed for an instance (R26, R169), and the free
values. A rule of the model names the parameter, never the number (R9). -/

namespace Sys2Proof

/-- The named timing parameters of R7, by which a wait is recorded. -/
inductive Delay where
  | tFs1 | tFs2 | tFs3 | tPw | tClr | tPon
  /-- No parameter of its own: `T_PW` and then `T_FS3`, the low hold of the third function-set write with what an instance waits
  after it, as one wait (R7, R76, R84; log 35). -/
  | tPwFs3
deriving DecidableEq, Repr

namespace Config

/-- `COLS`, R6. -/
def cols : Nat := 16

/-- `ROWS`, R6. -/
def rows : Nat := 2

/-- `ROW_OFFSET`, R6: `0x00` for row 0, `0x40` for row 1. -/
def rowOffset : Nat → Nat
  | 0 => 0x00
  | _ => 0x40

/-- `RS_MASK`, R8. PRESUMED (log 7), unsafe. -/
def rsMask : Byte := 0x01

/-- `EN_MASK`, R8. PRESUMED (log 7), unsafe. -/
def enMask : Byte := 0x04

/-- `BL_MASK`, R8. PRESUMED (log 7), unsafe. -/
def blMask : Byte := 0x08

/-- `NIB_FS8`, R9. PRESUMED (log 8), unsafe, as are the six values after it. -/
def nibFs8 : Byte := 0x30

/-- `NIB_FS4`, R9. -/
def nibFs4 : Byte := 0x20

/-- `CMD_FUNCTION_SET`, R9. -/
def cmdFunctionSet : Byte := 0x28

/-- `CMD_DISPLAY_CTRL`, R9. -/
def cmdDisplayCtrl : Byte := 0x0C

/-- `CMD_CLEAR`, R9. -/
def cmdClear : Byte := 0x01

/-- `CMD_ENTRY_MODE`, R9. -/
def cmdEntryMode : Byte := 0x06

/-- `CMD_SET_DDRAM`, R9. -/
def cmdSetDdram : Byte := 0x80

/-- `BL_RESET`, R10. DESIGN CHOICE of the spec (log 9), unsafe. -/
def blReset : Bool := true

/-- `GLYPH_OK`, R10, with its value for this hardware: true for all 256 codes. DESIGN CHOICE of the spec (log 11), unsafe. -/
def glyphOk (_code : Byte) : Bool := true

/-- The stated minimum of each timing parameter in nanoseconds, R7. -/
def floorNs : Delay → Nat
  | .tFs1 => 4100000
  | .tFs2 => 100000
  | .tFs3 => 0
  | .tPw => 100000
  | .tClr => 1520000
  | .tPon => 0
  | .tPwFs3 => 100000

/-- By how much an instance's parameter exceeds its minimum: open for every parameter, `T_FS3` included (R7, U14), so a constant
without a value. DESIGN CHOICE (log 10), safe. -/
opaque headroomNs : Delay → Nat

/-- The value of a timing parameter: at least its minimum (R7). -/
def parameterNs (t : Delay) : Nat := floorNs t + headroomNs t

/-- The time of a recorded wait; two waits recorded as one take the sum (R76). -/
def ns : Delay → Nat
  | .tPwFs3 => parameterNs .tPw + parameterNs .tFs3
  | .tFs1 => parameterNs .tFs1
  | .tFs2 => parameterNs .tFs2
  | .tFs3 => parameterNs .tFs3
  | .tPw => parameterNs .tPw
  | .tClr => parameterNs .tClr
  | .tPon => parameterNs .tPon

/-- What `REQ` holds outside an operation: "its value is not observable and is unspecified" (R18, U13). A free value; the
argument is State's counter `freeIx`. DESIGN CHOICE (log 5), safe. -/
opaque freeReq : Nat → BitVec 24

/-- R5: a clocked implementation of frequency `fClk` realises a wait of `t` nanoseconds as at least this many cycles. Used by
no rule. -/
def minCycles (fClk t : Nat) : Nat := (t * fClk + (10 ^ 9 - 1)) / 10 ^ 9

end Config

end Sys2Proof
end

