-- ==== Sys2Proof/Syntax.lean ====
section
/-! DEFINITION. The instructions: one constructor per row of spec/opcode_table.json, and the encoded forms that carry them. -/

namespace Sys2Proof

/-- The rows of the opcode table. Requests (R53) and the reserved space (R63); the two pseudo-instructions (R70, R71); the
values the block puts on the bus (R55, R118 to R126). -/
inductive Instr where
  /-- `INIT addr`, R85. -/
  | init (addr : Byte)
  /-- `CLEAR`, R96. -/
  | clear
  /-- `SET_CURSOR col, row`, R99. -/
  | setCursor (col row : Byte)
  /-- `PUTC code`, R103. -/
  | putc (code : Byte)
  /-- `BACKLIGHT_ON`, R109. -/
  | backlightOn
  /-- `BACKLIGHT_OFF`, R110. -/
  | backlightOff
  /-- A reserved request word, R63, R64. -/
  | reserved (word : BitVec 24)
  /-- `PRINT "text", col, row`, R106; the text is the list of codes the caller mapped it to (R70). -/
  | print (text : List Byte) (col row : Byte)
  /-- `TEARDOWN`, R115. -/
  | teardown
  /-- `WRITE_WORD`: one write word, R55: data nibble, backlight bit, enable bit, mode bit. -/
  | writeWord (d : BitVec 4) (blb e rs : Bool)
  /-- `NIB_FS8`, R118. -/
  | nibFs8
  /-- `NIB_FS4`, R119. -/
  | nibFs4
  /-- `CMD_FUNCTION_SET`, R120. -/
  | cmdFunctionSet
  /-- `CMD_DISPLAY_CTRL`, R121. -/
  | cmdDisplayCtrl
  /-- `CMD_CLEAR`, R122. -/
  | cmdClear
  /-- `CMD_ENTRY_MODE`, R123. -/
  | cmdEntryMode
  /-- `CMD_SET_DDRAM | addr7`, R124. -/
  | cmdSetDdram (addr7 : BitVec 7)
  /-- `DATA`: a character code in data mode, R125. -/
  | data (code : Byte)
  /-- `BL_WORD`: the backlight-only word, R126. -/
  | blWord (blb : Bool)
deriving DecidableEq, Repr

/-- The formats of the table's 8-bit rows. The spec tells them apart by their place in the stream, not by their bits (R67). -/
inductive EmitFormat where
  | ww8 | lcdNib4 | lcdCmd8 | lcdData8 | blWord8
deriving DecidableEq, Repr

/-- An encoded row: a request word (R51), or one byte in the format of an emitted value. -/
inductive Encoded where
  | req (w : BitVec 24)
  | byte (f : EmitFormat) (b : Byte)
deriving DecidableEq, Repr

/-- The mnemonics of the opcode table (R69). -/
def Instr.mnemonic : Instr → String
  | .init _ => "INIT"
  | .clear => "CLEAR"
  | .setCursor _ _ => "SET_CURSOR"
  | .putc _ => "PUTC"
  | .backlightOn => "BACKLIGHT_ON"
  | .backlightOff => "BACKLIGHT_OFF"
  | .reserved _ => "RESERVED"
  | .print _ _ _ => "PRINT"
  | .teardown => "TEARDOWN"
  | .writeWord _ _ _ _ => "WRITE_WORD"
  | .nibFs8 => "NIB_FS8"
  | .nibFs4 => "NIB_FS4"
  | .cmdFunctionSet => "CMD_FUNCTION_SET"
  | .cmdDisplayCtrl => "CMD_DISPLAY_CTRL"
  | .cmdClear => "CMD_CLEAR"
  | .cmdEntryMode => "CMD_ENTRY_MODE"
  | .cmdSetDdram _ => "CMD_SET_DDRAM"
  | .data _ => "DATA"
  | .blWord _ => "BL_WORD"

/-- Is the row one of the request words of R51 (the six operations and the reserved space)? -/
def Instr.isRequest : Instr → Bool
  | .init _ | .clear | .setCursor _ _ | .putc _ | .backlightOn | .backlightOff | .reserved _ => true
  | .print _ _ _ | .teardown => false
  | .writeWord _ _ _ _ | .nibFs8 | .nibFs4 | .cmdFunctionSet | .cmdDisplayCtrl | .cmdClear | .cmdEntryMode
  | .cmdSetDdram _ | .data _ | .blWord _ => false

/-- Is the row a pseudo-instruction, expanded by the host and without a word of its own (R70, R71)? -/
def Instr.isPseudo : Instr → Bool
  | .print _ _ _ | .teardown => true
  | .init _ | .clear | .setCursor _ _ | .putc _ | .backlightOn | .backlightOff | .reserved _ => false
  | .writeWord _ _ _ _ | .nibFs8 | .nibFs4 | .cmdFunctionSet | .cmdDisplayCtrl | .cmdClear | .cmdEntryMode
  | .cmdSetDdram _ | .data _ | .blWord _ => false

/-- Is it INIT, the one operation that changes `PHASE` (R24)? -/
def Instr.isInit : Instr → Bool
  | .init _ => true
  | .clear | .setCursor _ _ | .putc _ | .backlightOn | .backlightOff | .reserved _ | .print _ _ _ | .teardown => false
  | .writeWord _ _ _ _ | .nibFs8 | .nibFs4 | .cmdFunctionSet | .cmdDisplayCtrl | .cmdClear | .cmdEntryMode
  | .cmdSetDdram _ | .data _ | .blWord _ => false

end Sys2Proof
end

