-- ==== Sys2Proof/Decode.lean ====
section
/-! DEFINITION. Decoding of request words (R72) and of the emitted values by their format, total and rejecting by name, and
after it the encoder, from the same tables (R51, R53, R55, R60, R118 to R126). -/

namespace Sys2Proof

/-- Why bits decode to no row of the table. -/
inductive DecodeError where
  /-- A `LCDNIB4` byte whose nibble is neither `NIB_FS8` nor `NIB_FS4`. -/
  | unknownNibble (b : Byte)
  /-- A `LCDCMD8` byte that is none of the commands of R62. -/
  | unknownCommand (b : Byte)
  /-- A `WW8` byte with the bit set that R55 says is always 0. -/
  | notAWriteWord (b : Byte)
  /-- A `BLWORD8` byte with a bit other than the backlight bit set (R61). -/
  | notABacklightWord (b : Byte)
deriving DecidableEq, Repr

/-- `op`, R51. -/
def opField (w : BitVec 24) : Byte := w.extractLsb' 16 8

/-- `a`, R51. -/
def aField (w : BitVec 24) : Byte := w.extractLsb' 8 8

/-- `b`, R51. -/
def bField (w : BitVec 24) : Byte := w.extractLsb' 0 8

/-- A mask and match pair of the table's `REQ24` rows. -/
structure RequestPattern where
  mask : BitVec 24
  value : BitVec 24
deriving DecidableEq, Repr

/-- R72: `(REQ & mask) = match`. -/
def RequestPattern.selects (p : RequestPattern) (w : BitVec 24) : Bool := w &&& p.mask == p.value

def patInit : RequestPattern := ⟨0xFF00FF, 0x010000⟩
def patClear : RequestPattern := ⟨0xFFFFFF, 0x020000⟩
def patSetCursor : RequestPattern := ⟨0xFF0000, 0x030000⟩
def patPutc : RequestPattern := ⟨0xFF00FF, 0x040000⟩
def patBacklightOn : RequestPattern := ⟨0xFFFFFF, 0x050000⟩
def patBacklightOff : RequestPattern := ⟨0xFFFFFF, 0x060000⟩

/-- R72: total on all 24-bit words; a word that matches none of the six patterns is reserved. -/
def decodeRequest (w : BitVec 24) : Instr :=
  if patInit.selects w then .init (aField w)
  else if patClear.selects w then .clear
  else if patSetCursor.selects w then .setCursor (aField w) (bField w)
  else if patPutc.selects w then .putc (aField w)
  else if patBacklightOn.selects w then .backlightOn
  else if patBacklightOff.selects w then .backlightOff
  else .reserved w

/-- Is a bit of a mask set in a word? -/
def hasBit (w mask : Byte) : Bool := w &&& mask != 0

/-- The data nibble of a write word, bits 7:4 (R55). -/
def dataNibble (w : Byte) : BitVec 4 := w.extractLsb' 4 4

/-- The bits a write word may have set: the data nibble and the three control bits; the one left is always 0 (R8, R55). -/
def writeWordBits : Byte := 0xF0 ||| Config.rsMask ||| Config.enMask ||| Config.blMask

/-- A write word, R55. -/
def decodeWriteWord (b : Byte) : Except DecodeError Instr :=
  if hasBit b (~~~ writeWordBits) then .error (.notAWriteWord b)
  else .ok (.writeWord (dataNibble b) (hasBit b Config.blMask) (hasBit b Config.enMask) (hasBit b Config.rsMask))

/-- A single nibble of the handshake, bits 7:4 (R118, R119); bits 3:0 are not part of it. -/
def decodeNibble (b : Byte) : Except DecodeError Instr :=
  if dataNibble b = dataNibble Config.nibFs8 then .ok .nibFs8
  else if dataNibble b = dataNibble Config.nibFs4 then .ok .nibFs4
  else .error (.unknownNibble b)

/-- A command byte the block sends as a nibble pair, R62. -/
def decodeCommand (b : Byte) : Except DecodeError Instr :=
  if b = Config.cmdFunctionSet then .ok .cmdFunctionSet
  else if b = Config.cmdDisplayCtrl then .ok .cmdDisplayCtrl
  else if b = Config.cmdClear then .ok .cmdClear
  else if b = Config.cmdEntryMode then .ok .cmdEntryMode
  else if hasBit b Config.cmdSetDdram then .ok (.cmdSetDdram (b.extractLsb' 0 7))
  else .error (.unknownCommand b)

/-- The backlight-only word, R61. -/
def decodeBacklightWord (b : Byte) : Except DecodeError Instr :=
  if hasBit b (~~~ Config.blMask) then .error (.notABacklightWord b) else .ok (.blWord (hasBit b Config.blMask))

/-- A byte in the format of an emitted value. -/
def decodeEmitted : EmitFormat → Byte → Except DecodeError Instr
  | .ww8, b => decodeWriteWord b
  | .lcdNib4, b => decodeNibble b
  | .lcdCmd8, b => decodeCommand b
  | .lcdData8, b => .ok (.data b)
  | .blWord8, b => decodeBacklightWord b

/-- The decoder. -/
def decode : Encoded → Except DecodeError Instr
  | .req w => .ok (decodeRequest w)
  | .byte f b => decodeEmitted f b

/-- The format taken for a byte whose place in the stream is not known: the table's row with the most fixed bits that matches
it. DESIGN CHOICE (log 26), unsafe; used only by `decodeTableWord` and `withFetchWord`. -/
def guessFormat (b : Byte) : EmitFormat :=
  if b = Config.cmdFunctionSet || b = Config.cmdDisplayCtrl || b = Config.cmdClear || b = Config.cmdEntryMode then .lcdCmd8
  else if !hasBit b (~~~ Config.blMask) then .blWord8
  else if dataNibble b = dataNibble Config.nibFs8 || dataNibble b = dataNibble Config.nibFs4 then .lcdNib4
  else if hasBit b Config.cmdSetDdram then .lcdCmd8
  else if !hasBit b (~~~ writeWordBits) then .ww8
  else .lcdData8

/-- The encoded form of a table word of `nbits` bits: 24 is a request, 8 an emitted value. -/
def tableEncoded (nbits w : Nat) : Option Encoded :=
  if nbits = 24 then some (.req (BitVec.ofNat 24 w))
  else if nbits = 8 then some (.byte (guessFormat (BitVec.ofNat 8 w)) (BitVec.ofNat 8 w))
  else none

/-- What the decoder reads from a word of the opcode table. -/
def decodeTableWord (nbits w : Nat) : Option Instr :=
  match tableEncoded nbits w with
  | some e => (decode e).toOption
  | none => none

/-- The request word `op ++ a ++ b`, R51. -/
def packRequest (op a b : Byte) : BitVec 24 := op ++ a ++ b

/-- The request word of a request row, R53. The rows that are no requests have none; they answer the all-zero word, which no
rule of the model reads. -/
def requestWord : Instr → BitVec 24
  | .init addr => packRequest 0x01 addr 0
  | .clear => packRequest 0x02 0 0
  | .setCursor col row => packRequest 0x03 col row
  | .putc code => packRequest 0x04 code 0
  | .backlightOn => packRequest 0x05 0 0
  | .backlightOff => packRequest 0x06 0 0
  | .reserved w => w
  | .print _ _ _ | .teardown => 0
  | .writeWord _ _ _ _ | .nibFs8 | .nibFs4 | .cmdFunctionSet | .cmdDisplayCtrl | .cmdClear | .cmdEntryMode
  | .cmdSetDdram _ | .data _ | .blWord _ => 0

/-- A mask where a control bit is set, nothing where it is clear. -/
def bitAt (set : Bool) (mask : Byte) : Byte := if set then mask else 0

/-- A write word from its fields, R55. -/
def packWriteWord (d : BitVec 4) (blb e rs : Bool) : Byte :=
  (d ++ 0#4) ||| bitAt blb Config.blMask ||| bitAt e Config.enMask ||| bitAt rs Config.rsMask

/-- The command byte `CMD_SET_DDRAM | addr7`, R60, R124. -/
def setDdramByte (addr7 : BitVec 7) : Byte := Config.cmdSetDdram ||| addr7.setWidth 8

/-- What a row stands for on the request port: a pseudo-instruction is expanded by the host (R106, R115), every other row is
itself. -/
def expand : Instr → List Instr
  | .print text col row => .setCursor col row :: text.map .putc
  | .teardown => [.clear, .backlightOff]
  | .init addr => [.init addr]
  | .clear => [.clear]
  | .setCursor col row => [.setCursor col row]
  | .putc code => [.putc code]
  | .backlightOn => [.backlightOn]
  | .backlightOff => [.backlightOff]
  | .reserved w => [.reserved w]
  | .writeWord d blb e rs => [.writeWord d blb e rs]
  | .nibFs8 => [.nibFs8]
  | .nibFs4 => [.nibFs4]
  | .cmdFunctionSet => [.cmdFunctionSet]
  | .cmdDisplayCtrl => [.cmdDisplayCtrl]
  | .cmdClear => [.cmdClear]
  | .cmdEntryMode => [.cmdEntryMode]
  | .cmdSetDdram addr7 => [.cmdSetDdram addr7]
  | .data code => [.data code]
  | .blWord blb => [.blWord blb]

/-- The encoding of a row that is no pseudo-instruction. -/
def encodeOne : Instr → List Encoded
  | .writeWord d blb e rs => [.byte .ww8 (packWriteWord d blb e rs)]
  | .nibFs8 => [.byte .lcdNib4 Config.nibFs8]
  | .nibFs4 => [.byte .lcdNib4 Config.nibFs4]
  | .cmdFunctionSet => [.byte .lcdCmd8 Config.cmdFunctionSet]
  | .cmdDisplayCtrl => [.byte .lcdCmd8 Config.cmdDisplayCtrl]
  | .cmdClear => [.byte .lcdCmd8 Config.cmdClear]
  | .cmdEntryMode => [.byte .lcdCmd8 Config.cmdEntryMode]
  | .cmdSetDdram addr7 => [.byte .lcdCmd8 (setDdramByte addr7)]
  | .data code => [.byte .lcdData8 code]
  | .blWord blb => [.byte .blWord8 (bitAt blb Config.blMask)]
  | .print _ _ _ | .teardown => []
  | .init addr => [.req (requestWord (.init addr))]
  | .clear => [.req (requestWord .clear)]
  | .setCursor col row => [.req (requestWord (.setCursor col row))]
  | .putc code => [.req (requestWord (.putc code))]
  | .backlightOn => [.req (requestWord .backlightOn)]
  | .backlightOff => [.req (requestWord .backlightOff)]
  | .reserved w => [.req w]

/-- The words of an instruction: one for every row with a word of its own, those of its expansion for a pseudo-instruction. -/
def encode (i : Instr) : List Encoded := (expand i).flatMap encodeOne

end Sys2Proof
end

