-- ==== Sys2Proof/Machine/State.lean ====
section
/-! DEFINITION. The state: the registers of LCDSEQ (10_state.md R13), its ports (20_memory.md R32, 30_encoding.md R54), the
inputs still to come from the host and the transport, the trace, and the observer of the peripheral (44_emitted_commands.md
R128; 70_reset_and_hazards.md R166), which is no state of LCDSEQ (R26). Plain data. -/

namespace Sys2Proof.Machine

/-- `PHASE`, R14. -/
inductive Phase where
  | uninitialized | functionReset | fourBitModeLocked | configured
deriving DecidableEq, Repr

/-- The status of a response, R54. -/
inductive Status where
  | ok | unreachable | ioFailure | contractViolation
deriving DecidableEq, Repr

/-- The answer of the transport to one bus write, R31. -/
inductive TxResult where
  | ok | unreachable | ioFailure
deriving DecidableEq, Repr

/-- The mode bit, R57. -/
inductive Mode where
  | cmd | data
deriving DecidableEq, Repr

/-- A write word before the current backlight bit is OR-ed in: it is constructed fresh for each transport call (R18). -/
inductive BusWord where
  /-- A word of a nibble write: nibble value, mode, enable (R77). -/
  | nibble (n : Byte) (m : Mode) (enable : Bool)
  /-- The backlight-only word (R61). -/
  | backlight
  /-- A word given as it stands (the rows WRITE_WORD and BL_WORD). -/
  | raw (w : Byte)
deriving DecidableEq, Repr

/-- One event an operation has to perform (R5): a bus write or a wait. -/
inductive MicroEvent where
  | write (w : BusWord)
  | wait (t : Delay)
deriving DecidableEq, Repr

/-- One entry of an operation's event list (R83), with the phase taken when the event has completed (R87). -/
structure Micro where
  ev : MicroEvent
  phaseAfter : Option Phase := none
deriving DecidableEq, Repr

/-- `USEQ`, R19: idle, or the operation and how many of its events have completed. -/
inductive Useq where
  | idle
  | running (op : Instr) (k : Nat)
deriving DecidableEq, Repr

/-- `tx_addr` and `tx_byte` while `tx_valid = 1`, R32. -/
structure TxWrite where
  addr : Byte
  byte : Byte
deriving DecidableEq, Repr

/-- An entry of the record of a run: the events `W` and `D` of R12, the responses, and what else happens on the ports. -/
inductive Out where
  /-- A bus write and its answer. -/
  | w (addr byte : Byte) (r : TxResult)
  /-- A wait, by its parameter. -/
  | d (t : Delay)
  /-- A response (R54). -/
  | resp (st : Status)
  /-- A bus write handed to the transport and cut by reset before its answer (R165). -/
  | handed (addr byte : Byte)
  /-- A reset of the block (R163), during an operation or not. -/
  | reset (midOperation : Bool)
  /-- A power cycle of the display (R136). -/
  | power
  /-- A word of a second writer (R178). -/
  | foreign (byte : Byte)
  /-- The host lets a named time pass (R168, R175). -/
  | hostWait (t : Delay)
deriving DecidableEq, Repr

/-- What the host, or another agent outside the block, does next. -/
inductive Input where
  /-- An encoded row: on the hardware a request word; the emitted values are the model's own entry (log 6). -/
  | word (e : Encoded)
  /-- The host runs PRINT (R106). -/
  | print (text : List Byte) (col row : Byte)
  /-- The host runs TEARDOWN (R115). -/
  | teardown
  /-- The host presents a request and asserts reset when so many of its events have completed (R165). -/
  | cut (w : BitVec 24) (events : Nat)
  /-- The reset input (R163). -/
  | reset
  /-- The display is power-cycled (R136, R174). -/
  | powerCycle
  /-- A second writer puts a word on the bus (R178). -/
  | foreignWrite (byte : Byte)
  /-- The host delays its next request by a named time (R168, R175). -/
  | hostWait (t : Delay)
deriving DecidableEq, Repr

/-- Byte memory: address and byte pairs, addresses strictly rising. What is not listed has no known value (log 33). -/
abbrev Memory := List Host.Cell

/-- `p_if`, R128. -/
inductive PIf where
  | unknown | ambiguous | fourBit
deriving DecidableEq, Repr

/-- `p_half`, R128. -/
inductive Half where
  | expectHigh | expectLow
deriving DecidableEq, Repr

/-- A nibble latched before the lock of the 4-bit interface, and which settle delays of the handshake have passed between it and
the next latch (R88, R129, R131). -/
structure Latched where
  rs : Bool
  nibble : BitVec 4
  settled1 : Bool := false
  settled2 : Bool := false
deriving DecidableEq, Repr

/-- Where the enable line stands inside a pulse, and whether the hold has passed (R129, R130). -/
inductive Pulse where
  | idle | high | highHeld | low
deriving DecidableEq, Repr

/-- What a DDRAM cell is known to hold (R134). -/
inductive CellValue where
  | unknown | blank | code (c : Byte)
deriving DecidableEq, Repr

/-- What is known of the peripheral, R128. `none` is the spec's Unknown. No field is read by LCDSEQ (R34). Of `half`, `hiHalf`,
`ac` and `cells` nothing is said while `p_undef` is true (R136): they are read as `Display.pHalf`, `pHi`, `pAc`, `pDdram` and
`cell` (Machine/Display.lean). -/
structure Display where
  pIf : PIf
  /-- The last three nibbles latched before the lock, the newest first (R131). -/
  recent : List Latched
  /-- The display has been power-cycled, and since then neither locked nor left undefined (R131, R136, U2). -/
  cycled : Bool
  /-- `p_half` as followed. -/
  half : Option Half
  /-- `p_hi` as followed. -/
  hiHalf : Option (BitVec 4)
  pBusy : Option Bool
  /-- `p_ac` as followed. -/
  ac : Option (BitVec 7)
  /-- `p_ddram` as followed. -/
  cells : Memory
  /-- The shown cells that `cells` does not list are blank (R134). -/
  blanked : Bool
  pBl : Option Bool
  pUndef : Option Bool
  /-- The most recent word on the expander, `w(i-1)` of R129. -/
  lastWord : Option Byte
  pulse : Pulse
  /-- `T_PON` has been waited since power-on (R168). -/
  ponWaited : Bool
  /-- The last function-set, display-control and entry-mode bytes taken (R120, R121, R123). -/
  functionSet : Option Byte
  displayCtrl : Option Byte
  entryMode : Option Byte
deriving DecidableEq, Repr

/-- After power-on all is Unknown except `p_if = Ambiguous` (R128). -/
def Display.initial : Display where
  pIf := .ambiguous
  recent := []
  cycled := true
  half := none
  hiHalf := none
  pBusy := none
  ac := none
  cells := []
  blanked := false
  pBl := none
  pUndef := none
  lastWord := none
  pulse := .idle
  ponWaited := false
  functionSet := none
  displayCtrl := none
  entryMode := none

/-- No fault stops LCDSEQ: the three failures of R139 are responses with a next state, and an unanswered write leaves it busy
(R142). So the type has no constructor. -/
inductive Fault : Type
deriving DecidableEq, Repr

/-- Why a step has no meaning. -/
inductive Refusal where
  /-- Raised by an arm of `exec` that has no meaning yet (none is left). Safe. -/
  | notModelled (mnemonic : String)
  /-- Raised by `step` on a byte given as an emitted value in a format in which the table has no such row; the block never
  sends one (R117). Safe. -/
  | noSuchEmittedValue (why : DecodeError)
deriving DecidableEq, Repr

structure State where
  /-- `PHASE`, R14. -/
  phase : Phase
  /-- `ADDR`, R15. -/
  addr : Byte
  /-- `BL`, R16. -/
  bl : Bool
  /-- `FAULT_CV`, R17. -/
  faultCv : Bool
  /-- `REQ`, R18. -/
  req : BitVec 24
  /-- `USEQ`, R19. -/
  useq : Useq
  /-- `BUSY`, R20. -/
  busy : Bool
  /-- The transport port: a write whose answer has not come (R32). -/
  tx : Option TxWrite
  /-- The status last given to the caller (R54); for PRINT and TEARDOWN the result of R106, R115. -/
  result : Option Status
  /-- What has happened on the ports, oldest first. -/
  out : List Out
  /-- What the host does next, in order. -/
  inputs : List Input
  /-- `tx_result` of the bus writes to come, in order; when it is empty the transport has not answered (R74, R142). -/
  answers : List (BitVec 2)
  /-- The requests a pseudo-instruction in progress has still to issue, each only if the one before returned Ok (R106). -/
  todo : List Instr
  /-- The model's own counter of free values (log 5). -/
  freeIx : Nat
  /-- The observer of the peripheral (R128): a reset of the block makes it Unknown. -/
  lcd : Display
  /-- The peripheral itself, which a reset of the block leaves as it is (R166). -/
  panel : Display
deriving DecidableEq, Repr

/-- Just after power and reset: R27 for the registers, R128 for the peripheral. `REQ` is "unspecified" by R27: DESIGN CHOICE 0
(log 5), unsafe. Nothing has been asked and nothing answered. -/
def State.reset : State where
  phase := .uninitialized
  addr := 0x00
  bl := Config.blReset
  faultCv := false
  req := 0
  useq := .idle
  busy := false
  tx := none
  result := none
  out := []
  inputs := []
  answers := []
  todo := []
  freeIx := 0
  lcd := Display.initial
  panel := Display.initial

end Sys2Proof.Machine
end

