-- ==== Sys2Proof/Machine/Memory.lean ====
section
/-! DEFINITION. Byte memory in one canonical form: addresses strictly rising, below 2^7 (the DDRAM address space, 20_memory.md
R33). An address that is not listed has no known value, so no entry can equal it (log 33). LCDSEQ itself has no memory and
never reads (R34); this is the observer's `p_ddram` (R128). -/

namespace Sys2Proof.Machine

/-- The byte at an address, if one is known. -/
def Memory.read : Memory → Nat → Option Byte
  | [], _ => none
  | (a, b) :: rest, at' => if a = at' then some b else Memory.read rest at'

/-- Store a byte, keeping the addresses rising. -/
def Memory.write : Memory → Nat → Byte → Memory
  | [], at', x => [(at', x)]
  | (a, b) :: rest, at', x =>
    if at' < a then (at', x) :: (a, b) :: rest
    else if at' = a then (a, x) :: rest
    else (a, b) :: Memory.write rest at' x

/-- Every address is above `lower` and they rise. -/
def Memory.risingFrom : Nat → Memory → Bool
  | _, [] => true
  | lower, (a, _) :: rest => decide (lower ≤ a) && Memory.risingFrom (a + 1) rest

/-- The canonical form. -/
def Memory.wf (m : Memory) : Bool := Memory.risingFrom 0 m && m.all (fun c => c.1 < 128)

end Sys2Proof.Machine
end

