-- ==== Sys2Proof/Machine/Operands.lean ====
section
/-! DEFINITION. The operand forms: control bits (30_encoding.md R57), the halves of a byte (R58), the DDRAM address and its
command byte (R60, R101), the backlight-only word (R61), the write words of a nibble write (40_primitives.md R77). -/

namespace Sys2Proof.Machine

/-- The mode bit of a word, R57. -/
def modeBit : Mode → Byte
  | .cmd => 0
  | .data => Config.rsMask

/-- The backlight-only word, R61: the backlight bit and nothing else. -/
def backlightBit (bl : Bool) : Byte := if bl then Config.blMask else 0

/-- `ctl(m)`, R57. -/
def ctl (m : Mode) (bl : Bool) : Byte := modeBit m ||| backlightBit bl

/-- `hi(x)`, R58. -/
def hi (x : Byte) : Byte := x &&& 0xF0

/-- `lo(x)`, R58: the 8-bit shift discards the bits shifted out of bit 7 (R11). -/
def lo (x : Byte) : Byte := (x <<< 4) &&& 0xF0

/-- The write word that goes on the bus, constructed with `BL` as it stands (R18, R57, R77). -/
def BusWord.word (bl : Bool) : BusWord → Byte
  | .nibble n m false => n ||| ctl m bl
  | .nibble n m true => n ||| ctl m bl ||| Config.enMask
  | .backlight => backlightBit bl
  | .raw w => w

/-- Is the cursor in range? The comparison is on the full 8-bit operands (R52, R100). -/
def cursorInRange (col row : Byte) : Bool := col.toNat < Config.cols && row.toNat < Config.rows

/-- `ROW_OFFSET[row] + col`, an addition of natural numbers (R60, R101). -/
def ddram (col row : Byte) : Nat := Config.rowOffset row.toNat + col.toNat

/-- The command byte of SET_CURSOR, `CMD_SET_DDRAM | addr7` (R99). -/
def cursorCommand (col row : Byte) : Byte := Config.cmdSetDdram ||| BitVec.ofNat 8 (ddram col row)

end Sys2Proof.Machine
end

