-- ==== Sys2Proof/Machine/Display.lean ====
section
/-! DEFINITION. The peripheral contract (44_emitted_commands.md Part 2, R128 to R138): what the I/O expander and the display
controller do with the stream of write words, with Unknown where the spec gives no value. It is an assumption about the
environment; LCDSEQ reads none of it. Two of them follow the record of a run: the peripheral itself, which a reset of the block
leaves as it is (R166), and the observer of R128, which then knows nothing (log 16). Also the stream functions `Latch` (R129)
and `Bytes` (R132). -/

namespace Sys2Proof.Machine

/-- The enable bit of a word, R129. -/
def enOf (w : Byte) : Bool := hasBit w Config.enMask

/-- The mode bit of a word: 1 selects data (R117, R129). -/
def rsOf (w : Byte) : Bool := hasBit w Config.rsMask

/-- The backlight bit of a word, R135. -/
def blOf (w : Byte) : Bool := hasBit w Config.blMask

/-- `p_undef` once true stays true (R136); a false is forgotten with the rest (R128). -/
def keepUndef (u : Option Bool) : Option Bool := if u = some true then some true else none

/-- All that R128 gives of the controller is Unknown. What stays is bookkeeping of the stream: the word on the expander, the
pulse, and the last nibbles latched after a power cycle. `pBl` stays too: it belongs to the expander, and R135 gives it for
every delivered word, also while `p_undef` is true, where U1 says any value for every observer field (DESIGN CHOICE, log 40,
unsafe). -/
def Display.forget (d : Display) : Display :=
  { d with
    pIf := .unknown, half := none, hiHalf := none, pBusy := none, ac := none, cells := [], blanked := false,
    pUndef := keepUndef d.pUndef, functionSet := none, displayCtrl := none, entryMode := none }

/-- Nothing is known of the controller any more, until a power cycle and a complete INIT (U2). -/
def Display.lose (d : Display) : Display := { d.forget with recent := [], cycled := false, pulse := .idle }

/-- R136: the controller has been left in an undefined state. -/
def Display.undefine (d : Display) : Display := { d.lose with pUndef := some true }

/-- A power cycle of the display: all Unknown but `p_if = Ambiguous` (R128); a true `p_undef` stays until a complete INIT
(R136). -/
def Display.powerOn (d : Display) : Display := { Display.initial with pUndef := keepUndef d.pUndef }

/-- What the observer knows after a reset of LCDSEQ: all Unknown (R128). -/
def Display.blockReset (d : Display) : Display := { d.forget with pBl := none }

/-! What is said of the peripheral: while `p_undef` is true nothing of `p_half`, `p_hi`, `p_ac`, `p_ddram` and of what the display
shows (R136). -/

/-- Is the controller known to have been left undefined? -/
def Display.isUndefined (d : Display) : Bool := d.pUndef == some true

/-- `p_half`, R128, R132. -/
def Display.pHalf (d : Display) : Option Half := if d.isUndefined then none else d.half

/-- `p_hi`, R128, R132. -/
def Display.pHi (d : Display) : Option (BitVec 4) := if d.isUndefined then none else d.hiHalf

/-- `p_ac`, R128, R134. -/
def Display.pAc (d : Display) : Option (BitVec 7) := if d.isUndefined then none else d.ac

/-- `p_ddram`, R128, R134: the codes that are known. -/
def Display.pDdram (d : Display) : Memory := if d.isUndefined then [] else d.cells

/-- The cells the display shows, R42, R138. -/
def shownAddress (a : Nat) : Bool := a < 0x10 || (0x40 ≤ a && a < 0x50)

/-- What a cell is known to hold (R134). -/
def Display.cell (d : Display) (a : Nat) : CellValue :=
  match d.pDdram.read a with
  | some c => .code c
  | none => if !d.isUndefined && d.blanked && shownAddress a then .blank else .unknown

/-- What line `row`, position `col` shows, R138. -/
def Display.shown (d : Display) (col row : Byte) : CellValue := d.cell (ddram col row)

/-- `p_ac + 1` after a data byte, known only inside a row and in auto-increment entry mode (R134). -/
def Display.nextAc (d : Display) (a : BitVec 7) : Option (BitVec 7) :=
  if d.entryMode = some Config.cmdEntryMode && shownAddress a.toNat && shownAddress (a.toNat + 1) then some (a + 1) else none

/-- A completed data byte, R134. Where the address counter is Unknown any cell may have been written, so none is known
(log 20). -/
def Display.dataByte (d : Display) (x : Byte) : Display :=
  match d.ac with
  | some a => { d with cells := d.cells.write a.toNat x, ac := d.nextAc a }
  | none => { d with cells := [], blanked := false }

/-- A completed command byte, R120 to R124, R133, R134. A byte that the spec gives no effect leaves nothing known (log 19).
`p_undef` ends when the four configuration bytes of INIT have been taken after a power cycle and the handshake (R136, log 29). -/
def Display.commandByte (d : Display) (x : Byte) : Display :=
  if x = Config.cmdClear then { d with pBusy := some true, cells := [], blanked := true, ac := none }
  else if hasBit x Config.cmdSetDdram then { d with ac := some (x.extractLsb' 0 7) }
  else if x = Config.cmdFunctionSet then { d with functionSet := some x }
  else if x = Config.cmdDisplayCtrl then { d with displayCtrl := some x }
  else if x = Config.cmdEntryMode then
    { d with
      entryMode := some x
      pUndef := if d.functionSet.isSome && d.displayCtrl.isSome && d.blanked then some false else d.pUndef }
  else d.lose

/-- Nibble pairing, R132. The rule does not say what `p_hi` holds once the low nibble has completed the byte: Unknown (DESIGN CHOICE,
log 37, safe). -/
def Display.pair (d : Display) (rs : Bool) (n : BitVec 4) : Display :=
  match d.half, d.hiHalf with
  | some .expectHigh, _ => { d with hiHalf := some n, half := some .expectLow }
  | some .expectLow, some h =>
    let d' := { d with hiHalf := none, half := some .expectHigh }
    if rs then d'.dataByte (h ++ n) else d'.commandByte (h ++ n)
  | _, _ => d.lose

/-- The lock: the first nibble after it is a high nibble (R132), nothing is known yet of counter, cells and configuration, and
the display is no longer fresh from power-on (U2). A controller brought here from power-on is not executing a clear (DEDUCED,
log 17). From here on `pIf` and `pBusy` are said also in an INIT that recovers an undefined controller, before it is complete and
`p_undef` ends: R136 does not name them among what nothing is said of, U1 says any value for every observer field (DESIGN CHOICE,
log 41, unsafe). -/
def Display.lock (d : Display) : Display :=
  { d.forget with
    pIf := .fourBit, recent := [], cycled := false, half := some .expectHigh, pBusy := some false }

/-- Is it a function-set nibble of stage 1 (R118)? -/
def Latched.isFs8 (l : Latched) : Bool := !l.rs && l.nibble == dataNibble Config.nibFs8

/-- Stage 1 stands in the last three latches, in order, with its settle delays and no other latch in between (R88, R131). What was
latched before it does not matter. -/
def stage1Seen : List Latched → Bool
  | third :: second :: first :: _ => first.isFs8 && first.settled1 && second.isFs8 && second.settled2 && third.isFs8
  | _ => false

/-- A settle delay has passed since the last latch. -/
def settleNewest (f : Latched → Latched) : List Latched → List Latched
  | [] => []
  | l :: rest => f l :: rest

/-- A nibble latched before the lock. After a power cycle and `T_PON` (R168, log 27) the fourth nibble of a complete
handshake locks the 4-bit interface, whatever the controller's state was and whatever was latched before the handshake (R131);
without a power cycle before it the spec does not say so (U2). -/
def Display.handshake (d : Display) (rs : Bool) (n : BitVec 4) : Display :=
  if !d.cycled || !d.ponWaited then d
  else if !rs && n == dataNibble Config.nibFs4 && stage1Seen d.recent then d.lock
  else { d with recent := ({ rs := rs, nibble := n } :: d.recent).take 3 }

/-- The controller latches `(rs, n)`, R129. A latch while it executes a clear is lost or mis-paired (U11). -/
def Display.latch (d : Display) (rs : Bool) (n : BitVec 4) : Display :=
  match d.pIf with
  | .unknown => d.handshake rs n
  | .ambiguous => d.handshake rs n
  | .fourBit => if d.pBusy = some false then d.pair rs n else d.undefine

/-- A word reaches the expander (R41, R129, R130, R135). The latched pair is taken from the word that had enable high. A
missing hold leaves the controller undefined (U10). -/
def Display.deliver (d : Display) (w : Byte) : Display :=
  let d' := { d with pBl := some (blOf w), lastWord := some w }
  match d.pulse, enOf w, d.lastWord with
  | .idle, false, _ => d'
  | .idle, true, _ => { d' with pulse := .high }
  | .high, true, _ => d'
  | .highHeld, true, _ => d'
  | .highHeld, false, some v => { d' with pulse := .low }.latch (rsOf v) (dataNibble v)
  | .highHeld, false, none => d'.undefine
  | .high, false, _ => d'.undefine
  | .low, _, _ => d'.undefine

/-- A word that may or may not have reached the expander: a write that was not answered Ok, or one cut by reset (R74, R136,
R165). -/
def Display.maybeDeliver (d : Display) (w : Byte) : Display :=
  { d.undefine with
    pBl := if d.pBl = some (blOf w) then d.pBl else none
    lastWord := if d.lastWord = some w then d.lastWord else none }

/-- A hold has passed (R130). -/
def Display.hold (d : Display) : Display :=
  match d.pulse with
  | .high => { d with pulse := .highHeld }
  | .low => { d with pulse := .idle }
  | .idle | .highHeld => d

/-- A named time passes: enable holds (R130), settle delays (R131), the clear-execution time (R133), the power-on wait
(R168). -/
def Display.elapse (d : Display) (t : Delay) : Display :=
  match t with
  | .tPw => d.hold
  | .tPwFs3 => d.hold
  | .tFs1 => { d with recent := settleNewest (fun l => { l with settled1 := true }) d.recent }
  | .tFs2 => { d with recent := settleNewest (fun l => { l with settled2 := true }) d.recent }
  | .tFs3 => d
  | .tClr => if d.pBusy = some true then { d with pBusy := some false } else d
  | .tPon => { d with ponWaited := true }

/-- What an entry of the record does to the peripheral. A reset of the block leaves it as it is (R166), but for the operation
it cuts short (R136, R165). The display takes the words for every bus address (R44 leaves to the platform which address has a
device: DESIGN CHOICE, log 36, unsafe). A word of a second writer leaves the controller undefined (R136, R178), but `pBl` known
from that word, by R135 and against the letter of U1 (DESIGN CHOICE, log 40, unsafe). A write reaches the expander where its
answer stands in the record (DESIGN CHOICE, log 39, unsafe). -/
def Display.follow (d : Display) : Out → Display
  | .w _ b .ok => d.deliver b
  | .w _ b .unreachable => d.maybeDeliver b
  | .w _ b .ioFailure => d.maybeDeliver b
  | .d t => d.elapse t
  | .resp _ => d
  | .handed _ b => d.maybeDeliver b
  | .reset mid => if mid then d.undefine else d
  | .power => d.powerOn
  | .foreign b => { d.undefine with pBl := some (blOf b), lastWord := some b }
  | .hostWait t => d.elapse t

/-- Is the entry a reset of the block? -/
def Out.isReset : Out → Bool
  | .reset _ => true
  | .w _ _ _ | .d _ | .resp _ | .handed _ _ | .power | .foreign _ | .hostWait _ => false

/-- What the observer of R128 makes of an entry: what the peripheral does, but a reset of the block leaves it knowing nothing. -/
def Display.observe (d : Display) (o : Out) : Display := if o.isReset then (d.follow o).blockReset else d.follow o

/-- The observer run over a record. -/
def Display.observeAll (d : Display) (l : List Out) : Display := l.foldl Display.observe d

/-- The peripheral run over a record. -/
def Display.followAll (d : Display) (l : List Out) : Display := l.foldl Display.follow d

/-- `Latch(stream)`, R129: the pairs `(rs, n)` latched by a stream of write words. -/
def latches : List Byte → List (Bool × BitVec 4)
  | [] => []
  | v :: rest =>
    match rest with
    | [] => []
    | w :: _ => if enOf v && !enOf w then (rsOf v, dataNibble v) :: latches rest else latches rest

/-- Nibbles taken two at a time, high first, in the mode of the second (R132). -/
def pairUp : List (Bool × BitVec 4) → List (Bool × Byte)
  | (_, h) :: (rs, l) :: rest => (rs, h ++ l) :: pairUp rest
  | _ => []

/-- `Bytes(stream)` for a stream that begins with a complete INIT, R132: the first four latched nibbles as singles, the rest
in pairs. -/
def streamBytes (ws : List Byte) : List (BitVec 4) × List (Bool × Byte) :=
  (((latches ws).take 4).map Prod.snd, pairUp ((latches ws).drop 4))

/-- The write words of a record, in order. -/
def busWords : List Out → List Byte
  | [] => []
  | .w _ b _ :: rest => b :: busWords rest
  | _ :: rest => busWords rest

/-- The least time the waits of a record take, R179: consecutive waits add, they never merge (R76). -/
def waitedNs : List Out → Nat
  | [] => 0
  | .d t :: rest => Config.ns t + waitedNs rest
  | _ :: rest => waitedNs rest

end Sys2Proof.Machine
end

