-- ==== Sys2Proof/Machine/Events.lean ====
section
/-! DEFINITION. The event lists (40_primitives.md R83): the primitives NibbleWrite (R77) and ByteWrite (R79) and, for each row
that puts something on the bus, the ordered list of its events. -/

namespace Sys2Proof.Machine

/-- `BusWrite(w)`, R73. -/
def busWriteEvents (w : BusWord) : List Micro := [⟨.write w, none⟩]

/-- `Wait(t)`, R75. `Wait(0)` produces no event: the one parameter that can be 0 and is waited, `T_FS3`, is no event of its own
but part of a hold (log 35), so that every wait of an event list is longer than 0 (`eventList_waits_positive`). -/
def waitEvents (t : Delay) : List Micro := [⟨.wait t, none⟩]

/-- A nibble write: set up, enable high, hold, enable low, and a low hold that is `lowHold`. -/
def nibblePulse (n : Byte) (m : Mode) (lowHold : Delay) : List Micro :=
  busWriteEvents (.nibble n m false) ++ busWriteEvents (.nibble n m true) ++ waitEvents .tPw ++
    busWriteEvents (.nibble n m false) ++ waitEvents lowHold

/-- `NibbleWrite(n, m)`, R77: both holds are `T_PW`. -/
def nibbleWriteEvents (n : Byte) (m : Mode) : List Micro := nibblePulse n m .tPw

/-- `ByteWrite(x, m)`, R79: the high nibble first (R36). -/
def byteWriteEvents (x : Byte) (m : Mode) : List Micro := nibbleWriteEvents (hi x) m ++ nibbleWriteEvents (lo x) m

/-- The phase changes when the last event of the group has completed (R87). -/
def thenPhase (p : Phase) : List Micro → List Micro
  | [] => []
  | [m] => [{ m with phaseAfter := some p }]
  | m :: rest => m :: thenPhase p rest

/-- Stage 1 of INIT, R86, R88: no wait after the third write but its own low hold, which lasts `T_FS3` longer on an instance that
sets this parameter above 0 (R7, log 35). -/
def initStage1 : List Micro :=
  nibbleWriteEvents Config.nibFs8 .cmd ++ waitEvents .tFs1 ++ nibbleWriteEvents Config.nibFs8 .cmd ++ waitEvents .tFs2 ++
    nibblePulse Config.nibFs8 .cmd .tPwFs3

/-- Stage 2 of INIT, R89: a single nibble. -/
def initStage2 : List Micro := nibbleWriteEvents Config.nibFs4 .cmd

/-- Stage 3 of INIT, R90, R91. -/
def initStage3 : List Micro :=
  byteWriteEvents Config.cmdFunctionSet .cmd ++ byteWriteEvents Config.cmdDisplayCtrl .cmd ++
    byteWriteEvents Config.cmdClear .cmd ++ waitEvents .tClr ++ byteWriteEvents Config.cmdEntryMode .cmd

/-- INIT, R86, R87. -/
def initEvents : List Micro :=
  thenPhase .functionReset initStage1 ++ thenPhase .fourBitModeLocked initStage2 ++ thenPhase .configured initStage3

/-- CLEAR, R96. -/
def clearEvents : List Micro := byteWriteEvents Config.cmdClear .cmd ++ waitEvents .tClr

/-- SET_CURSOR, R99. -/
def setCursorEvents (col row : Byte) : List Micro := byteWriteEvents (cursorCommand col row) .cmd

/-- PUTC, R103. -/
def putcEvents (code : Byte) : List Micro := byteWriteEvents code .data

/-- BACKLIGHT_ON and BACKLIGHT_OFF, R109, R110: `BL` has been written before. -/
def backlightEvents : List Micro := busWriteEvents .backlight

/-- The event list of a row; it depends on the operands only (R83). A reserved request has none (R63), nor has a
pseudo-instruction, which is no operation of the block (R70, R71). -/
def eventList : Instr → List Micro
  | .init _ => initEvents
  | .clear => clearEvents
  | .setCursor col row => setCursorEvents col row
  | .putc code => putcEvents code
  | .backlightOn => backlightEvents
  | .backlightOff => backlightEvents
  | .reserved _ => []
  | .print _ _ _ => []
  | .teardown => []
  | .writeWord d blb e rs => busWriteEvents (.raw (packWriteWord d blb e rs))
  | .nibFs8 => nibbleWriteEvents Config.nibFs8 .cmd
  | .nibFs4 => nibbleWriteEvents Config.nibFs4 .cmd
  | .cmdFunctionSet => byteWriteEvents Config.cmdFunctionSet .cmd
  | .cmdDisplayCtrl => byteWriteEvents Config.cmdDisplayCtrl .cmd
  | .cmdClear => byteWriteEvents Config.cmdClear .cmd ++ waitEvents .tClr
  | .cmdEntryMode => byteWriteEvents Config.cmdEntryMode .cmd
  | .cmdSetDdram addr7 => byteWriteEvents (setDdramByte addr7) .cmd
  | .data code => byteWriteEvents code .data
  | .blWord blb => busWriteEvents (.raw (backlightBit blb))

end Sys2Proof.Machine
end

