-- ==== Sys2Proof/Machine/Flags.lean ====
section
/-! DEFINITION. LCDSEQ has no arithmetic flags (10_state.md R22). Here stand its condition outputs: the status codes (R54), the
transport's result codes (R32) and the status port `STAT` (R23). -/

namespace Sys2Proof.Machine

/-- R54. -/
def Status.code : Status → BitVec 2
  | .ok => 0
  | .unreachable => 1
  | .ioFailure => 2
  | .contractViolation => 3

/-- R32: 0 = Ok, 1 = Unreachable, 2 = IOFailure; a 3, which is never produced, is treated as IOFailure. -/
def TxResult.ofCode (c : BitVec 2) : TxResult :=
  if c = 0 then .ok else if c = 1 then .unreachable else .ioFailure

/-- The status a bus write's answer becomes (R140, R141). -/
def TxResult.status : TxResult → Status
  | .ok => .ok
  | .unreachable => .unreachable
  | .ioFailure => .ioFailure

/-- The phase numbers of R14. -/
def Phase.code : Phase → BitVec 2
  | .uninitialized => 0
  | .functionReset => 1
  | .fourBitModeLocked => 2
  | .configured => 3

/-- `STAT`, R23: `BUSY`, `FAULT_CV`, `BL`, `PHASE`, `ADDR` from the high bit down. Reading it changes nothing. -/
def State.stat (s : State) : BitVec 13 :=
  BitVec.ofBool s.busy ++ BitVec.ofBool s.faultCv ++ BitVec.ofBool s.bl ++ s.phase.code ++ s.addr

/-- `req_ready`, R20. -/
def State.reqReady (s : State) : Bool := !s.busy

end Sys2Proof.Machine
end

