-- ==== Sys2Proof/Machine/Ops.lean ====
section
/-! DEFINITION. The shared operations of the sequencer: acceptance (20_memory.md R50), responses (R54), the two failures as ONE
operation each (ContractViolation R143, bus error R146), the event engine (R46, R73, R75, R81), reset (R163, R165). There is no
return from a failure: the block is idle after any response (R151). -/

namespace Sys2Proof.Machine

/-- Record an entry; the peripheral and its observer take it. -/
def State.emit (o : Out) (s : State) : State :=
  { s with out := s.out ++ [o], lcd := s.lcd.observe o, panel := s.panel.follow o }

/-- Acceptance of a request: `REQ`, `BUSY` and `USEQ` (R18, R19, R20). -/
def State.accept (i : Instr) (s : State) : State :=
  { s with req := requestWord i, busy := true, useq := .running i 0 }

/-- The start of a sub-operation: the values the block emits are no requests, so `REQ` stays (log 6). -/
def State.begin (i : Instr) (s : State) : State := { s with busy := true, useq := .running i 0 }

/-- The sequencer becomes idle and `tx_valid` falls. -/
def State.toIdle (s : State) : State := { s with busy := false, useq := .idle, tx := none }

/-- `REQ` outside an operation is unspecified (R18): a free value (log 5). -/
def State.freeReq (s : State) : State := { s with req := Config.freeReq s.freeIx, freeIx := s.freeIx + 1 }

/-- The response to a request, R54: the block is idle again (R20, R151). -/
def State.respond (st : Status) (s : State) : State := { s.toIdle.freeReq.emit (.resp st) with result := some st }

/-- The end of a sub-operation: no request, so no response. -/
def State.release (st : Status) (s : State) : State := { s.toIdle with result := some st }

/-- The end of what is running: a response for a request, none for a sub-operation. -/
def State.conclude (st : Status) (s : State) : State :=
  match s.useq with
  | .running i _ => if i.isRequest then s.respond st else s.release st
  | .idle => s

/-- ContractViolation, R143: no event, `PHASE`, `ADDR`, `BL` unchanged, `FAULT_CV <- 1` (R17), status 3. -/
def State.contractViolation (s : State) : State := { s with faultCv := true }.respond .contractViolation

/-- A failed INIT leaves no handle: `PHASE <- Uninitialized` (R92); no other operation changes `PHASE` (R147). -/
def State.phaseAfterAbort (s : State) : Phase :=
  match s.useq with
  | .running i _ => if i.isInit then .uninitialized else s.phase
  | .idle => s.phase

/-- A bus error ends the operation at once, R81, R146; the registers are left as R147 says. -/
def State.busError (st : Status) (s : State) : State := { s with phase := s.phaseAfterAbort }.conclude st

/-- One more event has completed, R19. -/
def Useq.next : Useq → Useq
  | .running i k => .running i (k + 1)
  | .idle => .idle

/-- One more event has completed, R19; the phase changes where R87 says. -/
def State.advance (p : Option Phase) (s : State) : State :=
  { s with
    tx := none
    useq := s.useq.next
    phase := p.getD s.phase }

/-- `BusWrite`, R73: raise `tx_valid`; without an answer the block stays busy (R142); Ok completes the event; an error ends
the operation. The flag says whether the event completed. The spec does not say at which instant between `tx_valid` and `tx_done`
the word reaches the expander (R37 has one atomic delivery): here it is the answer (DESIGN CHOICE, log 39, unsafe). -/
def State.busWrite (w : BusWord) (p : Option Phase) (s : State) : State × Bool :=
  match s.answers with
  | [] => ({ s with tx := some ⟨s.addr, w.word s.bl⟩ }, false)
  | c :: rest =>
    match TxResult.ofCode c with
    | .ok => (({ s with answers := rest }.emit (.w s.addr (w.word s.bl) .ok)).advance p, true)
    | .unreachable =>
      (({ s with answers := rest }.emit (.w s.addr (w.word s.bl) .unreachable)).busError .unreachable, false)
    | .ioFailure =>
      (({ s with answers := rest }.emit (.w s.addr (w.word s.bl) .ioFailure)).busError .ioFailure, false)

/-- One event of an operation. A wait cannot fail (R75). -/
def State.doEvent (m : Micro) (s : State) : State × Bool :=
  match m.ev with
  | .write w => s.busWrite w m.phaseAfter
  | .wait t => ((s.emit (.d t)).advance m.phaseAfter, true)

/-- Events in list order, each after the one before has completed (R46). -/
def runEvents : List Micro → State → State
  | [], s => s
  | m :: rest, s =>
    match s.doEvent m with
    | (s', true) => runEvents rest s'
    | (s', false) => s'

/-- The events that the operation in progress has still to perform: its list from index `USEQ` on (R19, R84). -/
def State.remaining (s : State) : List Micro :=
  match s.useq with
  | .running i k => (eventList i).drop k
  | .idle => []

/-- After the last event the operation ends with Ok (R183); a block that waits for an answer does not. -/
def State.finish (s : State) : State := if s.busy && s.tx.isNone then s.conclude .ok else s

/-- Run the operation in progress to its end, or to a bus write that is not answered. -/
def State.resume (s : State) : State := (runEvents s.remaining s).finish

/-- Offer something to the block. While `BUSY = 1` the request port takes nothing (R20) and nothing changes (log 13). -/
def State.offer (start : State → State) (s : State) : State := if s.busy then s else (start s).resume

/-- Run a sub-operation: the block emits one value of R117 (log 6). -/
def State.emitValue (i : Instr) (s : State) : State := s.offer (State.begin i)

/-- A bus write already handed to the transport may or may not be delivered (R165). -/
def State.dropHanded (s : State) : State :=
  match s.tx with
  | some t => s.emit (.handed t.addr t.byte)
  | none => s

/-- The reset input, R163, R165: every register takes its value of R27 (`REQ` is unspecified: a free value), no response is
given, and the host's pseudo-instruction in progress is gone. An answer to the write that was cut is not awaited any more: none
is taken from `answers` for it (DESIGN CHOICE, log 38, unsafe). -/
def State.blockReset (s : State) : State :=
  { (s.dropHanded.emit (.reset s.busy)).toIdle.freeReq with
    phase := .uninitialized, addr := 0x00, bl := Config.blReset, faultCv := false, result := none, todo := [] }

end Sys2Proof.Machine
end

