-- ==== Sys2Proof/Machine/Emitted.lean ====
section
/-! DEFINITION. The meanings of the rows that are no requests: the values the block puts on the bus (30_encoding.md R55, R62;
44_emitted_commands.md R117 to R126). Each is the sub-operation that sends the value as its rule says (single nibble, nibble
pair or plain word; command or data mode) and, through the observer, what the peripheral does with it. Log 6. -/

namespace Sys2Proof.Machine

/-- WRITE_WORD: one bus write of the word, R55, R73. -/
def execWriteWord (d : BitVec 4) (blb e rs : Bool) (s : State) : Host.Outcome State Fault Refusal :=
  .next (s.emitValue (.writeWord d blb e rs))

/-- NIB_FS8: `NibbleWrite(NIB_FS8, cmd)`, R118. -/
def execNibFs8 (s : State) : Host.Outcome State Fault Refusal := .next (s.emitValue .nibFs8)

/-- NIB_FS4: `NibbleWrite(NIB_FS4, cmd)`, R119. -/
def execNibFs4 (s : State) : Host.Outcome State Fault Refusal := .next (s.emitValue .nibFs4)

/-- CMD_FUNCTION_SET: `ByteWrite(CMD_FUNCTION_SET, cmd)`, R120. -/
def execCmdFunctionSet (s : State) : Host.Outcome State Fault Refusal := .next (s.emitValue .cmdFunctionSet)

/-- CMD_DISPLAY_CTRL: `ByteWrite(CMD_DISPLAY_CTRL, cmd)`, R121. -/
def execCmdDisplayCtrl (s : State) : Host.Outcome State Fault Refusal := .next (s.emitValue .cmdDisplayCtrl)

/-- CMD_CLEAR: `ByteWrite(CMD_CLEAR, cmd)` followed by `Wait(T_CLR)`, R122. -/
def execCmdClear (s : State) : Host.Outcome State Fault Refusal := .next (s.emitValue .cmdClear)

/-- CMD_ENTRY_MODE: `ByteWrite(CMD_ENTRY_MODE, cmd)`, R123. -/
def execCmdEntryMode (s : State) : Host.Outcome State Fault Refusal := .next (s.emitValue .cmdEntryMode)

/-- CMD_SET_DDRAM: `ByteWrite(CMD_SET_DDRAM | addr7, cmd)`, R124. -/
def execCmdSetDdram (addr7 : BitVec 7) (s : State) : Host.Outcome State Fault Refusal :=
  .next (s.emitValue (.cmdSetDdram addr7))

/-- DATA: `ByteWrite(code, data)`, R125. -/
def execData (code : Byte) (s : State) : Host.Outcome State Fault Refusal := .next (s.emitValue (.data code))

/-- BL_WORD: one plain bus write, no enable pulse, R126. -/
def execBlWord (blb : Bool) (s : State) : Host.Outcome State Fault Refusal := .next (s.emitValue (.blWord blb))

end Sys2Proof.Machine
end

