-- ==== Sys2Proof/Machine/Requests.lean ====
section
/-! DEFINITION. The meanings of the six requests and of the reserved space (41_init.md, 42_display_ops.md, 43_backlight.md,
30_encoding.md R63, R64). Each has its acceptance (the checks, in the order of R150, and the registers written before the
first event) and its meaning: accepted and run to its response. -/

namespace Sys2Proof.Machine

/-- INIT: precondition `PHASE = Uninitialized`, then `ADDR <- addr` (R85, R86). -/
def acceptInit (addr : Byte) (s : State) : State :=
  if s.phase = .uninitialized then { s.accept (.init addr) with addr := addr }
  else (s.accept (.init addr)).contractViolation

/-- The common precondition `PHASE = Configured`, R95. -/
def State.acceptConfigured (i : Instr) (ok : Bool) (s : State) : State :=
  if s.phase = .configured then
    if ok then s.accept i else (s.accept i).contractViolation
  else (s.accept i).contractViolation

/-- CLEAR, R96. -/
def acceptClear (s : State) : State := s.acceptConfigured .clear true

/-- SET_CURSOR: the range check comes before any event (R99, R100). -/
def acceptSetCursor (col row : Byte) (s : State) : State := s.acceptConfigured (.setCursor col row) (cursorInRange col row)

/-- PUTC: the glyph check comes before any event (R103, R104). -/
def acceptPutc (code : Byte) (s : State) : State := s.acceptConfigured (.putc code) (Config.glyphOk code)

/-- The BACKLIGHT operations write `BL` before their bus write, and a failed precondition leaves it (R109, R110, R112). -/
def State.acceptBacklight (i : Instr) (on : Bool) (s : State) : State :=
  if s.phase = .configured then { s.accept i with bl := on } else (s.accept i).contractViolation

/-- BACKLIGHT_ON, R109. -/
def acceptBacklightOn (s : State) : State := s.acceptBacklight .backlightOn true

/-- BACKLIGHT_OFF, R110. -/
def acceptBacklightOff (s : State) : State := s.acceptBacklight .backlightOff false

/-- A reserved request raises ContractViolation in every phase (R63, R64, R158). -/
def acceptReserved (w : BitVec 24) (s : State) : State := (s.accept (.reserved w)).contractViolation

/-- INIT, R85 to R94. -/
def execInit (addr : Byte) (s : State) : Host.Outcome State Fault Refusal := .next (s.offer (acceptInit addr))

/-- CLEAR, R96 to R98. -/
def execClear (s : State) : Host.Outcome State Fault Refusal := .next (s.offer acceptClear)

/-- SET_CURSOR, R99 to R102. -/
def execSetCursor (col row : Byte) (s : State) : Host.Outcome State Fault Refusal :=
  .next (s.offer (acceptSetCursor col row))

/-- PUTC, R103 to R105. -/
def execPutc (code : Byte) (s : State) : Host.Outcome State Fault Refusal := .next (s.offer (acceptPutc code))

/-- BACKLIGHT_ON, R109. -/
def execBacklightOn (s : State) : Host.Outcome State Fault Refusal := .next (s.offer acceptBacklightOn)

/-- BACKLIGHT_OFF, R110. -/
def execBacklightOff (s : State) : Host.Outcome State Fault Refusal := .next (s.offer acceptBacklightOff)

/-- A reserved request, R63 to R65. -/
def execReserved (w : BitVec 24) (s : State) : Host.Outcome State Fault Refusal := .next (s.offer (acceptReserved w))

end Sys2Proof.Machine
end

