-- ==== Sys2Proof/Machine/Pseudo.lean ====
section
/-! DEFINITION. The host: the pseudo-instructions PRINT (42_display_ops.md R106 to R108) and TEARDOWN (43_backlight.md R115),
which it expands into requests and stops at the first status that is not Ok; a request cut by reset (70_reset_and_hazards.md
R165); the end of an operation that waited for an answer. -/

namespace Sys2Proof.Machine

/-- The acceptance of a request. The rows that are no requests are not accepted on the request port (R53, R65). -/
def acceptRequest : Instr → State → State
  | .init addr, s => acceptInit addr s
  | .clear, s => acceptClear s
  | .setCursor col row, s => acceptSetCursor col row s
  | .putc code, s => acceptPutc code s
  | .backlightOn, s => acceptBacklightOn s
  | .backlightOff, s => acceptBacklightOff s
  | .reserved w, s => acceptReserved w s
  | .print _ _ _, s | .teardown, s => s
  | .writeWord _ _ _ _, s | .nibFs8, s | .nibFs4, s | .cmdFunctionSet, s | .cmdDisplayCtrl, s | .cmdClear, s
  | .cmdEntryMode, s | .cmdSetDdram _, s | .data _, s | .blWord _, s => s

/-- The host issues requests in order, each only if the one before returned Ok (R106, R115). When a bus write is not answered
it waits with the rest. -/
def runTodo : List Instr → State → State
  | [], s => { s with todo := [] }
  | i :: rest, s =>
    let s' := (acceptRequest i s).resume
    if s'.busy then { s' with todo := rest }
    else if s'.result = some .ok then runTodo rest s'
    else { s' with todo := [] }

/-- The operation in progress goes on; when it has ended with Ok the host goes on with the rest of its pseudo-instruction. -/
def State.carryOn (s : State) : State :=
  let s' := s.resume
  if s'.busy then s'
  else if s'.result = some .ok then runTodo s'.todo s'
  else { s' with todo := [] }

/-- A request whose operation is cut by reset after so many events (R165). If it ends or waits before that, reset comes
there. -/
def State.cutRequest (i : Instr) (events : Nat) (s : State) : State :=
  let s' := acceptRequest i s
  let s'' := runEvents (s'.remaining.take events) s'
  State.blockReset (if s'.remaining.length ≤ events then s''.finish else s'')

/-- PRINT, R106: all characters are checked first; if one is not supported nothing is issued and the result is
ContractViolation (of the host, so `FAULT_CV` stays). -/
def execPrint (text : List Byte) (col row : Byte) (s : State) : Host.Outcome State Fault Refusal :=
  .next (if s.busy then s
    else if text.all Config.glyphOk then runTodo (expand (.print text col row)) s
    else { s with result := some .contractViolation })

/-- TEARDOWN, R115: CLEAR, then BACKLIGHT_OFF if it returned Ok. -/
def execTeardown (s : State) : Host.Outcome State Fault Refusal :=
  .next (if s.busy then s else runTodo (expand .teardown) s)

end Sys2Proof.Machine
end

