-- ==== Sys2Proof/Machine/Dispatch.lean ====
section
/-! DEFINITION. The meaning of each instruction, one arm per row of spec/opcode_table.json. -/

namespace Sys2Proof.Machine

def exec (i : Instr) (s : State) : Host.Outcome State Fault Refusal :=
  match i with
  -- REQ24
  | .init addr => Sys2Proof.Machine.execInit addr s
  | .clear => Sys2Proof.Machine.execClear s
  | .setCursor col row => Sys2Proof.Machine.execSetCursor col row s
  | .putc code => Sys2Proof.Machine.execPutc code s
  | .backlightOn => Sys2Proof.Machine.execBacklightOn s
  | .backlightOff => Sys2Proof.Machine.execBacklightOff s
  | .reserved w => Sys2Proof.Machine.execReserved w s
  -- PSEUDO
  | .print text col row => Sys2Proof.Machine.execPrint text col row s
  | .teardown => Sys2Proof.Machine.execTeardown s
  -- WW8
  | .writeWord d blb e rs => Sys2Proof.Machine.execWriteWord d blb e rs s
  -- LCDNIB4
  | .nibFs8 => Sys2Proof.Machine.execNibFs8 s
  | .nibFs4 => Sys2Proof.Machine.execNibFs4 s
  -- LCDCMD8
  | .cmdFunctionSet => Sys2Proof.Machine.execCmdFunctionSet s
  | .cmdDisplayCtrl => Sys2Proof.Machine.execCmdDisplayCtrl s
  | .cmdClear => Sys2Proof.Machine.execCmdClear s
  | .cmdEntryMode => Sys2Proof.Machine.execCmdEntryMode s
  | .cmdSetDdram addr7 => Sys2Proof.Machine.execCmdSetDdram addr7 s
  -- LCDDATA8
  | .data code => Sys2Proof.Machine.execData code s
  -- BLWORD8
  | .blWord blb => Sys2Proof.Machine.execBlWord blb s

end Sys2Proof.Machine
end

