-- ==== Sys2Proof/Machine/Inputs.lean ====
section
/-! DEFINITION. What the inputs of the block do (60_exceptions.md R155, 70_reset_and_hazards.md R163, R184): the parts of a
step that are not the meaning of an instruction. -/

namespace Sys2Proof.Machine

/-- An encoded row is taken from the request port and executed; a byte that is no row of its format has no meaning. -/
def runEncoded (e : Encoded) (s : State) : Host.Outcome State Fault Refusal :=
  match decode e with
  | .ok i => exec i s
  | .error why => .refused (.noSuchEmittedValue why)

/-- An idle block and the next input. -/
def takeInput (inp : Input) (s : State) : Host.Outcome State Fault Refusal :=
  match inp with
  | .word e => runEncoded e s
  | .print text col row => exec (.print text col row) s
  | .teardown => exec .teardown s
  | .cut w events => .next (s.cutRequest (decodeRequest w) events)
  | .reset => .next s.blockReset
  | .powerCycle => .next (s.emit .power)
  | .foreignWrite b => .next (s.emit (.foreign b))
  | .hostWait t => .next (s.emit (.hostWait t))

/-- A block that waits for an answer. Reset is asynchronous (R155); the display can lose power and a second writer can
interfere (R136); everything else waits for `req_ready` (R20, log 34). A power cycle or a second writer's word that comes while a
write waits therefore comes before the delivery of that write, which is at its answer (DESIGN CHOICE, log 39, unsafe). -/
def stepBusy (s : State) : State :=
  match s.inputs with
  | .reset :: rest => { s with inputs := rest }.blockReset
  | .powerCycle :: rest => { s with inputs := rest }.emit .power
  | .foreignWrite b :: rest => { s with inputs := rest }.emit (.foreign b)
  | _ => s.carryOn

/-- An idle block waits for a request (R27); with one, it takes it. -/
def stepIdle (s : State) : Host.Outcome State Fault Refusal :=
  match s.inputs with
  | [] => .next s
  | inp :: rest => takeInput inp { s with inputs := rest }

/-- An encoded row placed as the next thing the block takes. -/
def State.withNextWord (e : Encoded) (s : State) : State := { s.toIdle with inputs := .word e :: s.inputs, todo := [] }

end Sys2Proof.Machine
end

