-- ==== Sys2Proof/Machine/Step.lean ====
section
/-! DEFINITION. One step: the next input of the host is served to its response, or to a bus write that the transport has not
answered (log 1); a block in that state goes on when an answer has come. -/

namespace Sys2Proof.Machine

/-- One step of the machine. -/
def step (s : State) : Host.Outcome State Fault Refusal := if s.busy then .next (stepBusy s) else stepIdle s

/-- LCDSEQ fetches nothing (R50): the word is the next one on the request port, which takes it only when the block is idle
(R20). Log 4. Bits that are no table word change nothing. -/
def State.withFetchWord (s : State) (nbits w : Nat) : State :=
  match tableEncoded nbits w with
  | some e => s.withNextWord e
  | none => s

end Sys2Proof.Machine
end

