-- ==== Sys2Proof/Safety.lean ====
section
/-! DEFINITION. What a safe run is: no contract violation has happened, the premise 60_exceptions.md R143 asks of claims about
a run, and the display controller has not been left undefined (44_emitted_commands.md R136). -/

namespace Sys2Proof.Machine

/-- "No contract violation occurred" (R143). -/
def State.noViolation (s : State) : Bool := !s.faultCv

/-- A state of a safe run. -/
def State.safe (s : State) : Bool := s.noViolation && s.lcd.pUndef != some true

end Sys2Proof.Machine
end

