-- ==== Sys2Proof/WellFormed.lean ====
section
/-! DEFINITION. Well-formed instructions. The only row whose operand can be wrong is the reserved space: its word must be one
that R63 or R64 reserves, written here from those rules and not from the decoder. Out-of-range operands of SET_CURSOR and
PUTC are not encodings errors (R66). -/

namespace Sys2Proof

/-- R63: `op` other than `0x01..0x06`. -/
def reservedOp (w : BitVec 24) : Bool :=
  let op := (w.extractLsb' 16 8).toNat
  op == 0 || 7 ≤ op

/-- R64 with R53's table: a defined `op` with a non-zero reserved field. -/
def reservedField (w : BitVec 24) : Bool :=
  let op := (w.extractLsb' 16 8).toNat
  let aSet := w.extractLsb' 8 8 != 0
  let bSet := w.extractLsb' 0 8 != 0
  (op == 1 && bSet) || (op == 2 && (aSet || bSet)) || (op == 4 && bSet) || (op == 5 && (aSet || bSet)) ||
    (op == 6 && (aSet || bSet))

/-- Every operand value the encodings admit is well formed; a reserved word must be reserved. -/
def Instr.wellFormed : Instr → Bool
  | .reserved w => reservedOp w || reservedField w
  | .init _ | .clear | .setCursor _ _ | .putc _ | .backlightOn | .backlightOff => true
  | .print _ _ _ | .teardown => true
  | .writeWord _ _ _ _ | .nibFs8 | .nibFs4 | .cmdFunctionSet | .cmdDisplayCtrl | .cmdClear | .cmdEntryMode
  | .cmdSetDdram _ | .data _ | .blWord _ => true

end Sys2Proof
end

