-- ==== Sys2Proof/Certificates/Slice0/Obligations.lean ====
section
/-! DEFINITION. The statements for the provers, and the spec's own words for what they compare the model with (`Sys2Proof.Spec`):
traces, permissions and register sets written from the rules of spec/, not from the model's engine. -/

namespace Sys2Proof.Spec

open Sys2Proof.Machine

/-- `ctl(m)`, R57. -/
def control (data bl : Bool) : Byte := (if data then Config.rsMask else 0) ||| (if bl then Config.blMask else 0)

/-- The five events of a nibble write, R77, all answered Ok, with its low hold. -/
def pulse (a : Byte) (bl data : Bool) (n : Byte) (lowHold : Delay) : List Out :=
  [.w a (n ||| control data bl) .ok, .w a (n ||| control data bl ||| Config.enMask) .ok, .d .tPw,
   .w a (n ||| control data bl) .ok, .d lowHold]

/-- The five events of `NibbleWrite(n, m)`, R77, all answered Ok. -/
def nibble (a : Byte) (bl data : Bool) (n : Byte) : List Out := pulse a bl data n .tPw

/-- The ten events of `ByteWrite(x, m)`, R79. -/
def byte (a : Byte) (bl data : Bool) (x : Byte) : List Out :=
  nibble a bl data (x &&& 0xF0) ++ nibble a bl data ((x <<< 4) &&& 0xF0)

/-- The 63 events of INIT, R86. The low hold of the third function-set write takes in `T_FS3` (R7, R76; log 35). -/
def initTrace (a : Byte) (bl : Bool) : List Out :=
  nibble a bl false Config.nibFs8 ++ [.d .tFs1] ++ nibble a bl false Config.nibFs8 ++ [.d .tFs2] ++
    pulse a bl false Config.nibFs8 .tPwFs3 ++ nibble a bl false Config.nibFs4 ++ byte a bl false Config.cmdFunctionSet ++
    byte a bl false Config.cmdDisplayCtrl ++ byte a bl false Config.cmdClear ++ [.d .tClr] ++
    byte a bl false Config.cmdEntryMode

/-- The events of CLEAR, R96. -/
def clearTrace (a : Byte) (bl : Bool) : List Out := byte a bl false Config.cmdClear ++ [.d .tClr]

/-- The command byte of SET_CURSOR, R60. -/
def cursorByte (col row : Byte) : Byte := Config.cmdSetDdram + BitVec.ofNat 8 (row.toNat * 0x40 + col.toNat)

/-- The backlight-only word, R61. -/
def backlightWord (bl : Bool) : Byte := if bl then Config.blMask else 0

/-- The events of a request, with `BL` as it stands after acceptance (R83). A reserved request has none. -/
def requestTrace (a : Byte) (bl : Bool) : Instr → List Out
  | .init _ => initTrace a bl
  | .clear => clearTrace a bl
  | .setCursor col row => byte a bl false (cursorByte col row)
  | .putc code => byte a bl true code
  | .backlightOn => [.w a (backlightWord bl) .ok]
  | .backlightOff => [.w a (backlightWord bl) .ok]
  | .reserved _ => []
  | .print _ _ _ | .teardown => []
  | .writeWord _ _ _ _ | .nibFs8 | .nibFs4 | .cmdFunctionSet | .cmdDisplayCtrl | .cmdClear | .cmdEntryMode
  | .cmdSetDdram _ | .data _ | .blWord _ => []

/-- How many bus writes a request makes when nothing fails, R84. -/
def writeCount : Instr → Nat
  | .init _ => 36
  | .clear | .setCursor _ _ | .putc _ => 6
  | .backlightOn | .backlightOff => 1
  | .reserved _ => 0
  | .print _ _ _ | .teardown => 0
  | .writeWord _ _ _ _ | .nibFs8 | .nibFs4 | .cmdFunctionSet | .cmdDisplayCtrl | .cmdClear | .cmdEntryMode
  | .cmdSetDdram _ | .data _ | .blWord _ => 0

/-- The least waiting of a successful request, R179. -/
def minimumNs : Instr → Nat
  | .init _ => 8120000
  | .clear => 1920000
  | .setCursor _ _ | .putc _ => 400000
  | .backlightOn | .backlightOff | .reserved _ => 0
  | .print _ _ _ | .teardown => 0
  | .writeWord _ _ _ _ | .nibFs8 | .nibFs4 | .cmdFunctionSet | .cmdDisplayCtrl | .cmdClear | .cmdEntryMode
  | .cmdSetDdram _ | .data _ | .blWord _ => 0

/-- Which requests are executed, R158 with the range checks of R100 and R104. -/
def permitted (s : State) : Instr → Bool
  | .init _ => s.phase = .uninitialized
  | .clear | .backlightOn | .backlightOff => s.phase = .configured
  | .setCursor col row => s.phase = .configured && col.toNat ≤ 15 && row.toNat ≤ 1
  | .putc code => s.phase = .configured && Config.glyphOk code
  | .reserved _ => false
  | .print _ _ _ | .teardown => false
  | .writeWord _ _ _ _ | .nibFs8 | .nibFs4 | .cmdFunctionSet | .cmdDisplayCtrl | .cmdClear | .cmdEntryMode
  | .cmdSetDdram _ | .data _ | .blWord _ => false

/-- The registers a request writes before its first event: `ADDR` by INIT (R86), `BL` by the BACKLIGHT operations (R112). -/
def setUp (i : Instr) (s : State) : State :=
  match i with
  | .init a => { s with addr := a }
  | .backlightOn => { s with bl := true }
  | .backlightOff => { s with bl := false }
  | .clear | .setCursor _ _ | .putc _ | .reserved _ => s
  | .print _ _ _ | .teardown => s
  | .writeWord _ _ _ _ | .nibFs8 | .nibFs4 | .cmdFunctionSet | .cmdDisplayCtrl | .cmdClear | .cmdEntryMode
  | .cmdSetDdram _ | .data _ | .blWord _ => s

/-- The phase after so many events of INIT, R87 with the numbering of program P1. -/
def initPhase (k : Nat) : Phase :=
  if k < 17 then .uninitialized else if k < 22 then .functionReset else if k < 63 then .fourBitModeLocked else .configured

/-- The phase of an operation in progress: only INIT changes it. -/
def phaseAt (i : Instr) (k : Nat) (ph : Phase) : Phase :=
  match i with
  | .init _ => initPhase k
  | .clear | .setCursor _ _ | .putc _ | .backlightOn | .backlightOff | .reserved _ => ph
  | .print _ _ _ | .teardown => ph
  | .writeWord _ _ _ _ | .nibFs8 | .nibFs4 | .cmdFunctionSet | .cmdDisplayCtrl | .cmdClear | .cmdEntryMode
  | .cmdSetDdram _ | .data _ | .blWord _ => ph

/-- The phase an operation ends in with Ok. -/
def phaseDone (i : Instr) (ph : Phase) : Phase :=
  match i with
  | .init _ => .configured
  | .clear | .setCursor _ _ | .putc _ | .backlightOn | .backlightOff | .reserved _ => ph
  | .print _ _ _ | .teardown => ph
  | .writeWord _ _ _ _ | .nibFs8 | .nibFs4 | .cmdFunctionSet | .cmdDisplayCtrl | .cmdClear | .cmdEntryMode
  | .cmdSetDdram _ | .data _ | .blWord _ => ph

/-- The phase an operation ends in with a bus error, R92, R147. -/
def phaseFailed (i : Instr) (ph : Phase) : Phase :=
  match i with
  | .init _ => .uninitialized
  | .clear | .setCursor _ _ | .putc _ | .backlightOn | .backlightOff | .reserved _ => ph
  | .print _ _ _ | .teardown => ph
  | .writeWord _ _ _ _ | .nibFs8 | .nibFs4 | .cmdFunctionSet | .cmdDisplayCtrl | .cmdClear | .cmdEntryMode
  | .cmdSetDdram _ | .data _ | .blWord _ => ph

/-- A trace up to its `n`-th bus write (counted from 0), which gets the answer `r` (R81, R149). -/
def failAt : Nat → TxResult → List Out → List Out
  | 0, r, .w a b _ :: _ => [.w a b r]
  | n + 1, r, .w a b x :: rest => .w a b x :: failAt n r rest
  | n, r, o :: rest => o :: failAt n r rest
  | _, _, [] => []

/-- A trace up to but without its `n`-th bus write. -/
def beforeWrite : Nat → List Out → List Out
  | 0, .w _ _ _ :: _ => []
  | n + 1, .w a b x :: rest => .w a b x :: beforeWrite n rest
  | n, o :: rest => o :: beforeWrite n rest
  | _, [] => []

/-- The `n`-th bus write of a trace. -/
def writeAt : Nat → List Out → Option TxWrite
  | 0, .w a b _ :: _ => some ⟨a, b⟩
  | n + 1, .w _ _ _ :: rest => writeAt n rest
  | n, _ :: rest => writeAt n rest
  | _, [] => none

/-- The state after a response `st` to a request that put `trace` on the ports and left `rest` of the answers: the block is
idle, `REQ` is unspecified (R18), and nothing else has changed. -/
def responded (st : Status) (trace : List Out) (rest : List (BitVec 2)) (s : State) : State :=
  { s with
    busy := false, useq := .idle, tx := none, req := Config.freeReq s.freeIx, freeIx := s.freeIx + 1, result := some st
    answers := rest, out := s.out ++ trace ++ [.resp st], lcd := s.lcd.observeAll trace
    panel := s.panel.followAll trace }

/-- The state after a contract violation, R143: no event, `FAULT_CV <- 1`, status 3. -/
def violated (s : State) : State := { responded .contractViolation [] s.answers s with faultCv := true }

/-- The state after an emitted value has been sent: no request, so no response and `REQ` unchanged. -/
def sent (trace : List Out) (rest : List (BitVec 2)) (s : State) : State :=
  { s with
    busy := false, useq := .idle, tx := none, result := some .ok, answers := rest, out := s.out ++ trace
    lcd := s.lcd.observeAll trace
    panel := s.panel.followAll trace }

/-- The registers of R27 after a reset, `REQ` unspecified; the record and the inputs go on. -/
def resetRegisters (extra : List Out) (s : State) : State :=
  { s with
    phase := .uninitialized, addr := 0x00, bl := Config.blReset, faultCv := false, req := Config.freeReq s.freeIx
    freeIx := s.freeIx + 1, useq := .idle, busy := false, tx := none, result := none, todo := []
    out := s.out ++ extra, lcd := s.lcd.observeAll extra
    panel := s.panel.followAll extra }

/-- The trace of PRINT with the response of each of its requests, R106. -/
def printTrace (a : Byte) (bl : Bool) (text : List Byte) (col row : Byte) : List Out :=
  byte a bl false (cursorByte col row) ++ [.resp .ok] ++ text.flatMap (fun c => byte a bl true c ++ [.resp .ok])

/-- What the controller assembles from a request after INIT, R137. -/
def controllerBytes : Instr → List (Bool × Byte)
  | .clear => [(false, Config.cmdClear)]
  | .setCursor col row => [(false, cursorByte col row)]
  | .putc code => [(true, code)]
  | .init _ | .backlightOn | .backlightOff | .reserved _ => []
  | .print _ _ _ | .teardown => []
  | .writeWord _ _ _ _ | .nibFs8 | .nibFs4 | .cmdFunctionSet | .cmdDisplayCtrl | .cmdClear | .cmdEntryMode
  | .cmdSetDdram _ | .data _ | .blWord _ => []

/-- Requests executed one after another. -/
def execAll : List Instr → State → Host.Outcome State Fault Refusal
  | [], s => .next s
  | i :: rest, s =>
    match exec i s with
    | .next t => execAll rest t
    | .fault r => .fault r
    | .refused r => .refused r

/-- A controller in 4-bit mode, at a byte boundary, not busy, in auto-increment entry mode. -/
def Tracked (d : Display) : Prop :=
  d.pIf = .fourBit ∧ d.pHalf = some .expectHigh ∧ d.pBusy = some false ∧ d.pulse = .idle ∧
    d.entryMode = some Config.cmdEntryMode

/-- A display that has been power-cycled and whose `T_PON` has been waited, outside any enable pulse: what INIT needs. What has been
latched since does not matter (R131: "whatever it was"). -/
def AwaitsInit (d : Display) : Prop :=
  d.pIf ≠ .fourBit ∧ d.cycled = true ∧ d.ponWaited = true ∧ d.pulse = .idle

/-- What a complete INIT leaves: ready, not undefined, its counter not known, all shown cells blank, the backlight as in `BL`. -/
def Inited (bl : Bool) (d : Display) : Prop :=
  Tracked d ∧ d.pUndef = some false ∧ d.pAc = none ∧ d.pBl = some bl ∧
    ∀ col row : Byte, col.toNat ≤ 15 → row.toNat ≤ 1 → d.shown col row = .blank

/-- The display `d'` after a character has been put at a place of the display `d`. -/
def Landed (col row code : Byte) (d d' : Display) : Prop :=
  Tracked d' ∧ d'.shown col row = .code code ∧ (∀ a, a ≠ row.toNat * 0x40 + col.toNat → d'.cell a = d.cell a) ∧
    (col.toNat < 15 → d'.pAc = some (BitVec.ofNat 7 (row.toNat * 0x40 + col.toNat + 1))) ∧ (col.toNat = 15 → d'.pAc = none)

/-- A display that has been cleared and is ready for more. -/
def Cleared (d : Display) : Prop :=
  Tracked d ∧ d.pAc = none ∧ ∀ col row : Byte, col.toNat ≤ 15 → row.toNat ≤ 1 → d.shown col row = .blank

/-- Nothing is known of the controller, and no power cycle has come since (R136, U2). -/
def Lost (d : Display) : Prop :=
  d.pUndef = some true ∧ d.pIf = .unknown ∧ d.cycled = false

/-- Nothing is said of nibble pairing, address counter and cells (R136). -/
def Silent (d : Display) : Prop := d.pHalf = none ∧ d.pHi = none ∧ d.pAc = none ∧ ∀ a, d.cell a = .unknown

/-- `d'` differs from `d` in the backlight output and in the word on the expander alone. -/
def OnlyBacklight (bl : Bool) (w : Byte) (d d' : Display) : Prop := d' = { d with pBl := some bl, lastWord := some w }

/-- A `p_undef` that was true in `d` is still true in `d'`, and nothing is said there (R136). -/
def StaysUndefined (d d' : Display) : Prop := d.pUndef = some true → d'.pUndef = some true ∧ Silent d'

/-- The enable bit of a word cleared. -/
def enableLow (w : Byte) : Byte := w &&& ~~~ Config.enMask

/-- The shape of the registers in every state of a run (R13 to R20, R24, R32): idle and at rest in `Uninitialized` or
`Configured`, or waiting at a bus write of the operation in progress. -/
def BlockInv (s : State) : Prop :=
  (s.busy = false → s.useq = .idle ∧ s.tx = none ∧ s.todo = [] ∧ (s.phase = .uninitialized ∨ s.phase = .configured)) ∧
  (s.busy = true → ∃ i k w p,
    s.useq = .running i k ∧ (eventList i)[k]? = some ⟨.write w, p⟩ ∧ s.tx = some ⟨s.addr, w.word s.bl⟩ ∧
    (i.isRequest = true → s.req = requestWord i) ∧
    (∀ a, i = .init a → s.addr = a ∧ s.phase = initPhase k) ∧
    (i.isInit = false → (i.isRequest = true → s.phase = .configured) ∧ (s.phase = .uninitialized ∨ s.phase = .configured)))

end Sys2Proof.Spec

open Sys2Proof Sys2Proof.Machine Sys2Proof.Spec

/-! ## Encodings -/

/-- V1, from the table's encodings. -/
def Obligations.SampleRequestWordsDecode : Prop :=
  decodeRequest 0x012700 = .init 0x27 ∧ decodeRequest 0x020000 = .clear ∧ decodeRequest 0x030F01 = .setCursor 15 1 ∧
  decodeRequest 0x045700 = .putc 0x57 ∧ decodeRequest 0x050000 = .backlightOn ∧ decodeRequest 0x060000 = .backlightOff ∧
  decodeRequest 0x070000 = .reserved 0x070000 ∧ decodeRequest 0x012701 = .reserved 0x012701

/-- R65, R72: every request word is one of the six operations or reserved, and no bit of it is lost. -/
def Obligations.EveryRequestWordIsReadWhole : Prop :=
  ∀ w : BitVec 24, (decodeRequest w).isRequest = true ∧ (decodeRequest w).wellFormed = true ∧ requestWord (decodeRequest w) = w

/-- R72 with R63, R64: the decoding procedure; no two request patterns of the table select the same word, and a word that none
selects is reserved. -/
def Obligations.RequestsDecodeByTheProcedure : Prop :=
  ∀ (w : BitVec 24) (op : Nat) (a b : Byte),
    op = (w.extractLsb' 16 8).toNat → a = w.extractLsb' 8 8 → b = w.extractLsb' 0 8 →
    (op = 0 ∨ 7 ≤ op → decodeRequest w = .reserved w) ∧
    (op = 1 → decodeRequest w = if b = 0 then .init a else .reserved w) ∧
    (op = 2 → decodeRequest w = if a = 0 ∧ b = 0 then .clear else .reserved w) ∧
    (op = 3 → decodeRequest w = .setCursor a b) ∧
    (op = 4 → decodeRequest w = if b = 0 then .putc a else .reserved w) ∧
    (op = 5 → decodeRequest w = if a = 0 ∧ b = 0 then .backlightOn else .reserved w) ∧
    (op = 6 → decodeRequest w = if a = 0 ∧ b = 0 then .backlightOff else .reserved w) ∧
    ([patInit, patClear, patSetCursor, patPutc, patBacklightOn, patBacklightOff].countP (·.selects w) ≤ 1) ∧
    ([patInit, patClear, patSetCursor, patPutc, patBacklightOn, patBacklightOff].countP (·.selects w) = 0 →
      decodeRequest w = .reserved w)

/-- Decoding the words of a well-formed instruction gives it back; a pseudo-instruction gives its expansion (R70, R71). -/
def Obligations.DecodeOfEncodeIsTheInstruction : Prop :=
  ∀ i : Instr, i.wellFormed = true → (encode i).map decode = (expand i).map Except.ok

/-- R59 with R58: both halves lie in bits 7:4 and no bit is lost. -/
def Obligations.ByteSplitLosesNoBit : Prop :=
  ∀ x : Byte, hi x ||| (lo x >>> 4) = x ∧ hi x &&& 0x0F = 0 ∧ lo x &&& 0x0F = 0

/-- R101: the address is `row*0x40 + col`, fits 7 bits, and OR-ing the command flag adds it. -/
def Obligations.CursorAddressIsExact : Prop :=
  ∀ col row : Byte, col.toNat ≤ 15 → row.toNat ≤ 1 →
    ddram col row = row.toNat * 0x40 + col.toNat ∧ ddram col row ≤ 0x4F ∧ cursorCommand col row = cursorByte col row

/-! ## The requests, all answers Ok -/

/-- R86, R93: the whole handshake, `ADDR` and `PHASE` written, `BL` and `FAULT_CV` not. -/
def Obligations.InitRunsTheHandshake : Prop :=
  ∀ (a : Byte) (s : State) (rest : List (BitVec 2)),
    s.busy = false → s.phase = .uninitialized → s.answers = List.replicate 36 0 ++ rest →
    exec (.init a) s = .next { responded .ok (initTrace a s.bl) rest s with addr := a, phase := .configured }

/-- R96: the clear command, then `T_CLR`, then the response; no register written; a violation outside `Configured`. -/
def Obligations.ClearSendsTheCommandAndWaits : Prop :=
  ∀ (s : State) (rest : List (BitVec 2)), s.busy = false →
    (s.phase = .configured → s.answers = List.replicate 6 0 ++ rest →
      exec .clear s = .next (responded .ok (clearTrace s.addr s.bl) rest s)) ∧
    (s.phase ≠ .configured → exec .clear s = .next (violated s))

/-- R99, R100: the address command, no register written; a violation outside `Configured` or with an operand out of range,
never clamped, masked or wrapped. -/
def Obligations.SetCursorSendsTheAddress : Prop :=
  ∀ (col row : Byte) (s : State) (rest : List (BitVec 2)), s.busy = false →
    (s.phase = .configured → col.toNat ≤ 15 → row.toNat ≤ 1 → s.answers = List.replicate 6 0 ++ rest →
      exec (.setCursor col row) s = .next (responded .ok (byte s.addr s.bl false (cursorByte col row)) rest s)) ∧
    (s.phase ≠ .configured ∨ 15 < col.toNat ∨ 1 < row.toNat → exec (.setCursor col row) s = .next (violated s))

/-- R103: the code in data mode, no register written; a violation outside `Configured`. Every code is accepted: the glyph check
is `GLYPH_OK` of R10, true for all 256 codes by the choice of log 11 (R104), on which this statement rests. -/
def Obligations.PutcSendsTheCode : Prop :=
  ∀ (code : Byte) (s : State) (rest : List (BitVec 2)), s.busy = false →
    (s.phase = .configured → s.answers = List.replicate 6 0 ++ rest →
      exec (.putc code) s = .next (responded .ok (byte s.addr s.bl true code) rest s)) ∧
    (s.phase ≠ .configured → exec (.putc code) s = .next (violated s))

/-- R109, R110, R113: `BL` takes the new value and one plain word is sent, also when it had that value before; a violation
outside `Configured`. -/
def Obligations.BacklightOperationsSetTheFlag : Prop :=
  ∀ (s : State) (c : BitVec 2) (rest : List (BitVec 2)), s.busy = false →
    (s.phase = .configured → s.answers = c :: rest → TxResult.ofCode c = .ok →
      exec .backlightOn s = .next { responded .ok [.w s.addr Config.blMask .ok] rest s with bl := true } ∧
      exec .backlightOff s = .next { responded .ok [.w s.addr 0x00 .ok] rest s with bl := false }) ∧
    (s.phase ≠ .configured → exec .backlightOn s = .next (violated s) ∧ exec .backlightOff s = .next (violated s))

/-- R106, R108: SET_CURSOR, then one PUTC for each character, each with its response. -/
def Obligations.PrintWritesEveryCharacter : Prop :=
  ∀ (text : List Byte) (col row : Byte) (s : State) (rest : List (BitVec 2)),
    s.busy = false → s.phase = .configured → col.toNat ≤ 15 → row.toNat ≤ 1 → text.all Config.glyphOk = true →
    s.answers = List.replicate (6 + 6 * text.length) 0 ++ rest →
    exec (.print text col row) s =
      .next { s with
        busy := false, useq := .idle, tx := none, todo := [], result := some .ok, answers := rest
        req := Config.freeReq (s.freeIx + text.length), freeIx := s.freeIx + text.length + 1
        out := s.out ++ printTrace s.addr s.bl text col row
        lcd := s.lcd.observeAll (printTrace s.addr s.bl text col row)
        panel := s.panel.followAll (printTrace s.addr s.bl text col row) }

/-- R115: CLEAR, then BACKLIGHT_OFF; `PHASE` stays. -/
def Obligations.TeardownClearsAndDarkens : Prop :=
  ∀ (s : State) (rest : List (BitVec 2)),
    s.busy = false → s.phase = .configured → s.answers = List.replicate 7 0 ++ rest →
    exec .teardown s =
      .next { s with
        busy := false, useq := .idle, tx := none, todo := [], result := some .ok, answers := rest, bl := false
        req := Config.freeReq (s.freeIx + 1), freeIx := s.freeIx + 2
        out := s.out ++ (clearTrace s.addr s.bl ++ [.resp .ok, .w s.addr 0x00 .ok, .resp .ok])
        lcd := s.lcd.observeAll (clearTrace s.addr s.bl ++ [.resp .ok, .w s.addr 0x00 .ok, .resp .ok])
        panel := s.panel.followAll (clearTrace s.addr s.bl ++ [.resp .ok, .w s.addr 0x00 .ok, .resp .ok]) }

/-! ## The emitted values (run on their own: log 6) -/

/-- R118, R119: single nibble writes in command mode. -/
def Obligations.HandshakeNibblesAreSent : Prop :=
  ∀ (s : State) (rest : List (BitVec 2)), s.busy = false → s.answers = List.replicate 3 0 ++ rest →
    exec .nibFs8 s = .next (sent (nibble s.addr s.bl false Config.nibFs8) rest s) ∧
    exec .nibFs4 s = .next (sent (nibble s.addr s.bl false Config.nibFs4) rest s)

/-- R120 to R125: byte writes in command mode, the clear command followed by its wait, and a byte write in data mode. -/
def Obligations.CommandAndDataBytesAreSent : Prop :=
  ∀ (addr7 : BitVec 7) (code : Byte) (s : State) (rest : List (BitVec 2)), s.busy = false → s.answers = List.replicate 6 0 ++ rest →
    exec .cmdFunctionSet s = .next (sent (byte s.addr s.bl false Config.cmdFunctionSet) rest s) ∧
    exec .cmdDisplayCtrl s = .next (sent (byte s.addr s.bl false Config.cmdDisplayCtrl) rest s) ∧
    exec .cmdClear s = .next (sent (byte s.addr s.bl false Config.cmdClear ++ [.d .tClr]) rest s) ∧
    exec .cmdEntryMode s = .next (sent (byte s.addr s.bl false Config.cmdEntryMode) rest s) ∧
    exec (.cmdSetDdram addr7) s =
      .next (sent (byte s.addr s.bl false (Config.cmdSetDdram + BitVec.ofNat 8 addr7.toNat)) rest s) ∧
    exec (.data code) s = .next (sent (byte s.addr s.bl true code) rest s)

/-- R55, R126: one plain bus write; the fields of the word stand where R55 puts them. -/
def Obligations.PlainWordsAreSent : Prop :=
  ∀ (d : BitVec 4) (blb e rs : Bool) (s : State) (c : BitVec 2) (rest : List (BitVec 2)),
    s.busy = false → s.answers = c :: rest → TxResult.ofCode c = .ok →
    exec (.writeWord d blb e rs) s =
      .next (sent [.w s.addr (d ++ BitVec.ofBool blb ++ BitVec.ofBool e ++ 0#1 ++ BitVec.ofBool rs) .ok] rest s) ∧
    exec (.blWord blb) s = .next (sent [.w s.addr (backlightWord blb) .ok] rest s)

/-- An emitted value changes no register of the block whatever the answers (log 6). -/
def Obligations.EmittedValuesLeaveTheRegisters : Prop :=
  ∀ (i : Instr) (s : State), i.isRequest = false → i.isPseudo = false → s.busy = false →
    ∃ t, exec i s = .next t ∧ t.phase = s.phase ∧ t.addr = s.addr ∧ t.bl = s.bl ∧ t.faultCv = s.faultCv ∧ t.req = s.req ∧
      t.freeIx = s.freeIx ∧ t.inputs = s.inputs ∧ t.todo = s.todo ∧
      ∃ tr used, t.out = s.out ++ tr ∧ s.answers = used ++ t.answers ∧ t.lcd = s.lcd.observeAll tr ∧
        t.panel = s.panel.followAll tr

/-! ## Contract violations -/

/-- R63, R64: in every phase, with no bus write; the words are those of a reserved `op` or a non-zero reserved field. -/
def Obligations.ReservedRequestsViolateTheContract : Prop :=
  ∀ (w : BitVec 24) (s : State), s.busy = false →
    exec (.reserved w) s = .next (violated s) ∧
    (reservedOp w = true ∨ reservedField w = true → decodeRequest w = .reserved w)

/-- R144: a request its phase or its operands do not permit, and no other: no event, nothing written but `FAULT_CV`. -/
def Obligations.RequestsNotPermittedViolateTheContract : Prop :=
  ∀ (i : Instr) (s : State), i.isRequest = true → s.busy = false →
    (exec i s = .next (violated s) ↔ permitted s i = false)

/-- R107, and R95 for the phases other than `Configured`: the first request of the expansion is refused and nothing is sent. -/
def Obligations.PrintRefusedAtItsFirstRequestSendsNothing : Prop :=
  ∀ (text : List Byte) (col row : Byte) (s : State), s.busy = false → text.all Config.glyphOk = true →
    (16 ≤ col.toNat ∨ 2 ≤ row.toNat ∨ s.phase ≠ .configured) →
      exec (.print text col row) s = .next { violated s with todo := [] }

/-- R17: set by every violation, cleared by no request and no pseudo-instruction. -/
def Obligations.ViolationFlagIsSticky : Prop :=
  ∀ (i : Instr) (s : State), ∃ t, exec i s = .next t ∧ (s.faultCv = true → t.faultCv = true) ∧
    (i.isRequest = true → s.busy = false → (t.faultCv = true ↔ s.faultCv = true ∨ permitted s i = false))

/-- R17: `FAULT_CV` changes the behaviour of no operation: with the other value an instruction differs in that alone. -/
def Obligations.ViolationFlagChangesNothing : Prop :=
  ∀ (i : Instr) (s t : State) (b : Bool), exec i s = .next t →
    ∃ b', exec i { s with faultCv := b } = .next { t with faultCv := b' }

/-! ## Bus errors and unanswered writes -/

/-- R81, R92, R112, R146, R147, R149: the operation ends at the first write that is not answered Ok, with that status. -/
def Obligations.FirstBusErrorEndsTheOperation : Prop :=
  ∀ (i : Instr) (s : State) (n : Nat) (c : BitVec 2) (rest : List (BitVec 2)),
    s.busy = false → permitted s i = true → n < writeCount i → TxResult.ofCode c ≠ .ok →
    s.answers = List.replicate n 0 ++ c :: rest →
    exec i s =
      .next { responded (TxResult.ofCode c).status
                (failAt n (TxResult.ofCode c) (requestTrace (setUp i s).addr (setUp i s).bl i)) rest (setUp i s) with
              phase := phaseFailed i s.phase }

/-- R18, R19, R20, R32, R87, R142: at a write that is not answered the block stays busy, holding the write on its port. That the
display has not taken that write yet is the model's choice (log 39). -/
def Obligations.UnansweredWriteLeavesTheBlockBusy : Prop :=
  ∀ (i : Instr) (s : State) (n : Nat),
    s.busy = false → permitted s i = true → n < writeCount i → s.answers = List.replicate n 0 →
    exec i s =
      .next { setUp i s with
        answers := [], busy := true, req := requestWord i
        useq := .running i (beforeWrite n (requestTrace (setUp i s).addr (setUp i s).bl i)).length
        tx := writeAt n (requestTrace (setUp i s).addr (setUp i s).bl i)
        phase := phaseAt i (beforeWrite n (requestTrace (setUp i s).addr (setUp i s).bl i)).length s.phase
        out := s.out ++ beforeWrite n (requestTrace (setUp i s).addr (setUp i s).bl i)
        lcd := s.lcd.observeAll (beforeWrite n (requestTrace (setUp i s).addr (setUp i s).bl i))
        panel := s.panel.followAll (beforeWrite n (requestTrace (setUp i s).addr (setUp i s).bl i)) }

/-- U8: without an answer and without another input a busy block changes nothing. -/
def Obligations.UnansweredBlockStaysAsItIs : Prop :=
  ∀ (i : Instr) (s t : State), s.busy = false → s.inputs = [] → exec i s = .next t → t.busy = true → step t = .next t

/-- An answer that comes later has the effect of one that was there (R46, R74; how the model waits is log 2). -/
def Obligations.AnswersMayComeLater : Prop :=
  ∀ (i : Instr) (s t : State) (a b : List (BitVec 2)),
    s.busy = false → s.inputs = [] → s.todo = [] → exec i { s with answers := a } = .next t → t.busy = true →
    step { t with answers := b } = exec i { s with answers := a ++ b }

/-- R20: while busy nothing is taken from the request port. -/
def Obligations.BusyBlockTakesNothing : Prop :=
  ∀ (i : Instr) (e : Encoded) (rest : List Input) (s : State), s.busy = true →
    exec i s = .next s ∧ (s.inputs = .word e :: rest → ∃ t, step s = .next t ∧ t.inputs = s.inputs)

/-- R54, R183: with answers for every write, each request gets exactly one response, the last thing it puts on the ports. -/
def Obligations.EveryRequestGetsOneResponse : Prop :=
  ∀ (i : Instr) (s : State), i.isRequest = true → s.busy = false → 36 ≤ s.answers.length →
    ∃ t tr st, exec i s = .next t ∧ t.busy = false ∧ t.out = s.out ++ tr ++ [.resp st] ∧ t.result = some st ∧
      ∀ st', Out.resp st' ∉ tr

/-- R107: a PRINT that did not complete never reports Ok. -/
def Obligations.PrintReportsOkOnlyWhenComplete : Prop :=
  ∀ (text : List Byte) (col row : Byte) (s t : State), s.busy = false → exec (.print text col row) s = .next t →
    t.busy = false → t.result = some .ok →
    ∃ tr, t.out = s.out ++ tr ∧ (busWords tr).length = 6 + 6 * text.length ∧
      ∀ a b r, Out.w a b r ∈ tr → r = .ok

/-- R106, R107: PRINT stops at the first request that fails; no later bus write is made. -/
def Obligations.PrintStopsAtTheFirstError : Prop :=
  ∀ (text : List Byte) (col row : Byte) (s : State) (n : Nat) (c : BitVec 2) (rest : List (BitVec 2)),
    s.busy = false → s.phase = .configured → col.toNat ≤ 15 → row.toNat ≤ 1 → text.all Config.glyphOk = true →
    n < 6 + 6 * text.length → TxResult.ofCode c ≠ .ok → s.answers = List.replicate n 0 ++ c :: rest →
    ∃ t tr, exec (.print text col row) s = .next t ∧ t.busy = false ∧ t.result = some (TxResult.ofCode c).status ∧
      t.answers = rest ∧ t.todo = [] ∧ t.phase = .configured ∧ t.out = s.out ++ tr ∧ (busWords tr).length = n + 1

/-- R115: the result is the first status that is not Ok. If CLEAR fails, by a bus error (R98) or outside `Configured` (R95),
BACKLIGHT_OFF is not issued; if BACKLIGHT_OFF fails, `BL` keeps the 0 that it was given before its write (R112). -/
def Obligations.TeardownStopsAtTheFirstFailure : Prop :=
  ∀ (s : State), s.busy = false →
    (s.phase ≠ .configured → exec .teardown s = .next { violated s with todo := [] }) ∧
    (∀ (n : Nat) (c : BitVec 2) (rest : List (BitVec 2)),
      s.phase = .configured → n < 6 → TxResult.ofCode c ≠ .ok → s.answers = List.replicate n 0 ++ c :: rest →
      exec .teardown s =
        .next { responded (TxResult.ofCode c).status (failAt n (TxResult.ofCode c) (clearTrace s.addr s.bl)) rest s with
                todo := [] }) ∧
    (∀ (c : BitVec 2) (rest : List (BitVec 2)),
      s.phase = .configured → TxResult.ofCode c ≠ .ok → s.answers = List.replicate 6 0 ++ c :: rest →
      exec .teardown s =
        .next { responded (TxResult.ofCode c).status [.w s.addr 0x00 (TxResult.ofCode c)] rest
                  { responded .ok (clearTrace s.addr s.bl) (c :: rest) s with bl := false } with
                todo := [] })

/-! ## Frames and whole-machine rules -/

/-- R30: what each request leaves, whatever the answers. -/
def Obligations.RequestsWriteOnlyTheirRegisters : Prop :=
  ∀ (i : Instr) (s : State), i.isRequest = true → s.busy = false →
    ∃ t, exec i s = .next t ∧ t.inputs = s.inputs ∧ t.todo = s.todo ∧
      (∃ tr used, t.out = s.out ++ tr ∧ s.answers = used ++ t.answers ∧ t.lcd = s.lcd.observeAll tr ∧
        t.panel = s.panel.followAll tr) ∧
      ((∀ a, i ≠ .init a) → t.phase = s.phase ∧ t.addr = s.addr) ∧
      (i ≠ .backlightOn → i ≠ .backlightOff → t.bl = s.bl)

/-- R15, R24: nothing but reset leaves `Configured`, and `ADDR` cannot change there. -/
def Obligations.ConfiguredIsTerminal : Prop :=
  ∀ (i : Instr) (s : State), s.phase = .configured →
    ∃ t, exec i s = .next t ∧ (s.busy = false → t.phase = .configured ∧ t.addr = s.addr)

/-- R25, R33, R55, R82: every word of a request carries `BL`, has its unused bit clear, and goes to `ADDR`. -/
def Obligations.EveryWordCarriesTheBacklightBit : Prop :=
  ∀ (i : Instr) (s : State), i.isRequest = true → s.busy = false →
    ∃ t tr, exec i s = .next t ∧ t.out = s.out ++ tr ∧
      ∀ a w r, Out.w a w r ∈ tr → a = t.addr ∧ hasBit w Config.blMask = t.bl ∧ hasBit w 0x02 = false

/-- R78: the enable bit is high in the second word of a pulse only, and both holds are there (the low hold of the third
function-set write takes in `T_FS3`, log 35). -/
def Obligations.EnablePulsesAreWhole : Prop :=
  ∀ (i : Instr) (s : State) (rest : List (BitVec 2)), s.busy = false → permitted s i = true →
    s.answers = List.replicate (writeCount i) 0 ++ rest →
    ∃ t tr, exec i s = .next t ∧ t.out = s.out ++ tr ∧
      ∀ pre post a w r, tr = pre ++ Out.w a w r :: post → hasBit w Config.enMask = true →
        ∃ pre' post' lowHold, pre = pre' ++ [Out.w a (enableLow w) .ok] ∧ (lowHold = .tPw ∨ lowHold = .tPwFs3) ∧
          post = .d .tPw :: .w a (enableLow w) .ok :: .d lowHold :: post'

/-- R179: the least waiting of a successful request, for every value of the open timing parameters. -/
def Obligations.RequestsWaitLongEnough : Prop :=
  ∀ (i : Instr) (s : State) (rest : List (BitVec 2)), s.busy = false → permitted s i = true →
    s.answers = List.replicate (writeCount i) 0 ++ rest →
    ∃ t tr, exec i s = .next t ∧ t.out = s.out ++ tr ∧ minimumNs i ≤ waitedNs tr

/-- R97: no fast path skips the wait of a second CLEAR. -/
def Obligations.SecondClearWaitsAgain : Prop :=
  ∀ (s : State) (rest : List (BitVec 2)), s.busy = false → s.phase = .configured → s.answers = List.replicate 12 0 ++ rest →
    ∃ t, execAll [.clear, .clear] s = .next t ∧
      t.out = s.out ++ (clearTrace s.addr s.bl ++ [.resp .ok] ++ clearTrace s.addr s.bl ++ [.resp .ok])

/-- R23: the status port. R14: the phase numbers. R54: the status numbers. R32: the codes of `tx_result`, of which a 3 is treated
as IOFailure. -/
def Obligations.PortsShowTheirCodes : Prop :=
  (∀ s : State, s.stat.getLsbD 12 = s.busy ∧ s.stat.getLsbD 11 = s.faultCv ∧ s.stat.getLsbD 10 = s.bl ∧
    s.stat.extractLsb' 8 2 = s.phase.code ∧ s.stat.extractLsb' 0 8 = s.addr) ∧
  Phase.code .uninitialized = 0 ∧ Phase.code .functionReset = 1 ∧ Phase.code .fourBitModeLocked = 2 ∧ Phase.code .configured = 3 ∧
  Status.code .ok = 0 ∧ Status.code .unreachable = 1 ∧ Status.code .ioFailure = 2 ∧ Status.code .contractViolation = 3 ∧
  TxResult.ofCode 0 = .ok ∧ TxResult.ofCode 1 = .unreachable ∧ TxResult.ofCode 2 = .ioFailure ∧ TxResult.ofCode 3 = .ioFailure

/-! ## Reset -/

/-- R27: the values after reset, but for `REQ`, which the spec leaves unspecified; nothing is emitted, and the block waits. -/
def Obligations.ResetLeavesTheRegistersOfTheSpec : Prop :=
  State.reset.phase = .uninitialized ∧ State.reset.addr = 0x00 ∧ State.reset.bl = Config.blReset ∧ Config.blReset = true ∧
  State.reset.faultCv = false ∧ State.reset.useq = .idle ∧ State.reset.busy = false ∧ State.reset.tx = none ∧
  State.reset.out = [] ∧ step State.reset = .next State.reset

/-- R27, R163, R165: the reset input, when the block is idle and when it waits for an answer. What the next state has beside the
spec's registers is the model's choice: `answers` as before, also after a write cut by reset (log 38, unsafe on a transport whose
late answer is taken for the next write), `result` empty (log 31), `todo` empty (log 24), `REQ` a free value (log 5), and a write
on the port that may or may not be delivered (logs 16, 23). -/
def Obligations.ResetInputRestoresTheRegisters : Prop :=
  ∀ (s : State) (rest : List Input), s.inputs = .reset :: rest →
    (s.busy = false → s.tx = none → step s = .next (resetRegisters [.reset false] { s with inputs := rest })) ∧
    (∀ a b, s.busy = true → s.tx = some ⟨a, b⟩ →
      step s = .next (resetRegisters [.handed a b, .reset true] { s with inputs := rest }))

/-- R166: a reset of an idle block leaves the peripheral as it is; R128: its observer then knows nothing (log 16). -/
def Obligations.ResetKeepsThePeripheral : Prop :=
  ∀ (s : State) (rest : List Input), s.busy = false → s.tx = none → s.inputs = .reset :: rest →
    ∃ t, step s = .next t ∧ t.panel = s.panel ∧ t.lcd.pIf = .unknown ∧ t.lcd.pBusy = none ∧ t.lcd.pBl = none ∧ Silent t.lcd ∧
      t.lcd.pUndef ≠ some false

/-- R136, R165: an operation cut by reset after `k` of its events: no further event, no response, the controller undefined. -/
def Obligations.ResetCutsTheOperation : Prop :=
  ∀ (i : Instr) (s : State) (k : Nat) (rest : List Input) (more : List (BitVec 2)),
    s.busy = false → s.tx = none → permitted s i = true → s.answers = List.replicate (writeCount i) 0 ++ more →
    k < (requestTrace (setUp i s).addr (setUp i s).bl i).length → s.inputs = .cut (requestWord i) k :: rest →
    ∃ t, step s = .next t ∧
      t.out = s.out ++ ((requestTrace (setUp i s).addr (setUp i s).bl i).take k ++ [.reset true]) ∧
      t.phase = .uninitialized ∧ t.addr = 0x00 ∧ t.bl = Config.blReset ∧ t.faultCv = false ∧ t.useq = .idle ∧
      t.busy = false ∧ t.tx = none ∧ t.inputs = rest ∧ Lost t.lcd ∧ Lost t.panel

/-! ## The step -/

/-- The word on the request port is the instruction that runs (R50, R72); pseudo-instructions are run by the host. -/
def Obligations.StepRunsTheDecodedInstruction : Prop :=
  ∀ (s : State) (rest : List Input), s.busy = false →
    (∀ e i, s.inputs = .word e :: rest → decode e = .ok i → step s = exec i { s with inputs := rest }) ∧
    (∀ text col row, s.inputs = .print text col row :: rest → step s = exec (.print text col row) { s with inputs := rest }) ∧
    (s.inputs = .teardown :: rest → step s = exec .teardown { s with inputs := rest }) ∧
    (s.inputs = [] → step s = .next s)

/-- A table word placed as the next word is what the next step runs (log 4). -/
def Obligations.PlacedTableWordRunsNext : Prop :=
  ∀ (s : State) (nbits w : Nat) (i : Instr), decodeTableWord nbits w = some i →
    step (s.withFetchWord nbits w) = exec i { s.toIdle with todo := [] }

/-- A byte given as an emitted value in a format that has no such row is refused by name, and nothing else is: neither a byte
that is a row of its format nor a request word (R65). That such a byte can be given at all, and is refused, is the model's
choice (log 6). -/
def Obligations.OnlyBytesOfNoRowAreRefused : Prop :=
  ∀ (s : State) (rest : List Input) (e : Encoded), s.busy = false → s.inputs = .word e :: rest →
    (∀ why, decode e = .error why → step s = .refused (.noSuchEmittedValue why)) ∧
    (∀ i, decode e = .ok i → ∃ t, step s = .next t) ∧
    (∀ w, e = .req w → ∃ t, step s = .next t)

/-- R17: only the reset input clears `FAULT_CV`. -/
def Obligations.OnlyResetClearsTheViolationFlag : Prop :=
  ∀ (s t : State), s.faultCv = true → step s = .next t →
    (∀ rest, s.inputs ≠ .reset :: rest) → (∀ w k rest, s.inputs ≠ .cut w k :: rest) → t.faultCv = true

/-- R13 to R20, R24, R32: the shape of the registers, kept by every step. -/
def Obligations.RegisterShapeIsKept : Prop := ∀ s t : State, BlockInv s → step s = .next t → BlockInv t

/-- The three invariants hold at reset. Only the shape of the registers is the spec's (R27). That the display and its observer are
in `State.reset` as just after power-on is the model's choice (log 12, unsafe: R27 does not say it, and R166 has a reset leave the
peripheral as it is), and so is the canonical form of their memories (log 33). -/
def Obligations.InvariantsHoldAtReset : Prop :=
  BlockInv State.reset ∧ State.reset.lcd = Display.initial.observeAll State.reset.out ∧
  State.reset.panel = Display.initial.followAll State.reset.out ∧
  State.reset.lcd.cells.wf = true ∧ State.reset.panel.cells.wf = true

/-- R26, R128, R166: the observer and the peripheral are functions of what has happened on the ports; kept by every step. The
place of a write in the record is that of its answer, the model's choice (log 39). -/
def Obligations.ObserverFollowsTheRecord : Prop :=
  ∀ s t : State, s.lcd = Display.initial.observeAll s.out ∧ s.panel = Display.initial.followAll s.out → step s = .next t →
    t.lcd = Display.initial.observeAll t.out ∧ t.panel = Display.initial.followAll t.out

/-- R26, R34: the block reads nothing of the peripheral: with another peripheral a step differs in that alone. -/
def Obligations.BlockReadsNothingOfThePeripheral : Prop :=
  ∀ (s t : State) (d p : Display), step s = .next t →
    ∃ d' p', step { s with lcd := d, panel := p } = .next { t with lcd := d', panel := p' }

/-! ## The peripheral -/

/-- R137: what the controller assembles from the words of a whole run is exactly what the requests say. -/
def Obligations.ControllerAssemblesWhatWasRequested : Prop :=
  ∀ (a : Byte) (ops : List Instr) (s : State) (rest : List (BitVec 2)),
    s.busy = false → s.phase = .uninitialized →
    (∀ i ∈ ops, permitted { s with phase := .configured } i = true) →
    s.answers = List.replicate (36 + (ops.map writeCount).sum) 0 ++ rest →
    ∃ t tr, execAll (.init a :: ops) s = .next t ∧ t.out = s.out ++ tr ∧
      streamBytes (busWords tr) =
        ([dataNibble Config.nibFs8, dataNibble Config.nibFs8, dataNibble Config.nibFs8, dataNibble Config.nibFs4],
         [(false, Config.cmdFunctionSet), (false, Config.cmdDisplayCtrl), (false, Config.cmdClear),
          (false, Config.cmdEntryMode)] ++ ops.flatMap controllerBytes)

/-- R131, R132, R134, R135, R136: a complete INIT of a display that has been power-cycled, `T_PON` waited, whatever has been latched
since and whether or not `p_undef` was true, for the observer (whose interface mode may be Unknown after a reset of the block) and
for the peripheral. -/
def Obligations.InitBringsAFreshDisplayToFourBitMode : Prop :=
  ∀ (a : Byte) (s : State) (rest : List (BitVec 2)),
    s.busy = false → s.phase = .uninitialized → s.answers = List.replicate 36 0 ++ rest →
    ∃ t, exec (.init a) s = .next t ∧ (AwaitsInit s.lcd → Inited s.bl t.lcd) ∧ (AwaitsInit s.panel → Inited s.bl t.panel)

/-- R136, R174: power cycle, reset of the block, `T_PON`, INIT: `p_undef`, if true, ends with the last bus write of INIT and not
before: not while INIT has had fewer than its 36 answers. -/
def Obligations.RecoveryTakesAPowerCycleAndInit : Prop :=
  ∀ (a : Byte) (s : State) (rest : List Input) (more : List (BitVec 2)),
    s.busy = false → s.tx = none → s.answers = List.replicate 36 0 ++ more →
    s.inputs = .powerCycle :: .reset :: .hostWait .tPon :: .word (.req (requestWord (.init a))) :: rest →
    ∃ s₁ s₂ s₃ t, step s = .next s₁ ∧ step s₁ = .next s₂ ∧ step s₂ = .next s₃ ∧ step s₃ = .next t ∧
      StaysUndefined s.lcd s₃.lcd ∧ StaysUndefined s.panel s₃.panel ∧
      (∀ n, n < 36 → ∃ u, exec (.init a) { s₃ with inputs := rest, answers := List.replicate n 0 } = .next u ∧
        StaysUndefined s.lcd u.lcd ∧ StaysUndefined s.panel u.panel) ∧
      Inited Config.blReset t.lcd ∧ Inited Config.blReset t.panel

/-- R134, R138: SET_CURSOR and PUTC put the code in the cell of that column and row, and leave every other cell; the counter
moves on, but at the end of a row it is not known (U6). -/
def Obligations.CharacterLandsAtTheCursor : Prop :=
  ∀ (col row code : Byte) (s : State) (rest : List (BitVec 2)),
    s.busy = false → s.phase = .configured → col.toNat ≤ 15 → row.toNat ≤ 1 → Config.glyphOk code = true →
    s.answers = List.replicate 12 0 ++ rest →
    ∃ t, execAll [.setCursor col row, .putc code] s = .next t ∧
      (Tracked s.lcd → Landed col row code s.lcd t.lcd) ∧ (Tracked s.panel → Landed col row code s.panel t.panel)

/-- R133, R134: CLEAR blanks every cell the display shows and waits until it is done; the counter is not known. -/
def Obligations.ClearBlanksTheDisplay : Prop :=
  ∀ (s : State) (rest : List (BitVec 2)), s.busy = false → s.phase = .configured → s.answers = List.replicate 6 0 ++ rest →
    ∃ t, exec .clear s = .next t ∧ (Tracked s.lcd → Cleared t.lcd) ∧ (Tracked s.panel → Cleared t.panel)

/-- R111, R135: a backlight operation changes the backlight and nothing the controller holds. That the backlight is also known of
an undefined controller is the model's choice (log 40). -/
def Obligations.BacklightOperationsLatchNothing : Prop :=
  ∀ (s : State) (c : BitVec 2) (rest : List (BitVec 2)), s.busy = false → s.phase = .configured → s.answers = c :: rest →
    TxResult.ofCode c = .ok →
    ∃ t u, exec .backlightOn s = .next t ∧ exec .backlightOff s = .next u ∧
      (s.lcd.pulse = .idle → OnlyBacklight true Config.blMask s.lcd t.lcd ∧ OnlyBacklight false 0x00 s.lcd u.lcd) ∧
      (s.panel.pulse = .idle → OnlyBacklight true Config.blMask s.panel t.panel ∧ OnlyBacklight false 0x00 s.panel u.panel)

/-- R136: after a bus error in any request, and after a word of a second writer (R178), whether the block is idle or waits for an
answer, nothing is known of the controller, and nothing is said. -/
def Obligations.BusErrorOrSecondWriterLeavesTheControllerUndefined : Prop :=
  (∀ (i : Instr) (s : State) (n : Nat) (c : BitVec 2) (rest : List (BitVec 2)),
    s.busy = false → permitted s i = true → n < writeCount i → TxResult.ofCode c ≠ .ok →
    s.answers = List.replicate n 0 ++ c :: rest →
    ∃ t, exec i s = .next t ∧ Lost t.lcd ∧ Silent t.lcd ∧ Lost t.panel ∧ Silent t.panel) ∧
  (∀ (s : State) (b : Byte) (rest : List Input), s.inputs = .foreignWrite b :: rest →
    ∃ t, step s = .next t ∧ Lost t.lcd ∧ Silent t.lcd ∧ Lost t.panel ∧ Silent t.panel)

/-- R136, U2: an undefined controller stays so until a power cycle of the display, and nothing is said of it. -/
def Obligations.OnlyAPowerCycleEndsTheUndefinedState : Prop :=
  ∀ s t : State, step s = .next t → (∀ rest, s.inputs ≠ .powerCycle :: rest) →
    (Lost s.lcd → Lost t.lcd ∧ Silent t.lcd) ∧ (Lost s.panel → Lost t.panel ∧ Silent t.panel)

/-- Every step keeps the canonical form of the known cells (log 33). -/
def Obligations.DisplayMemoryStaysCanonical : Prop :=
  ∀ s t : State, s.lcd.cells.wf = true ∧ s.panel.cells.wf = true → step s = .next t →
    t.lcd.cells.wf = true ∧ t.panel.cells.wf = true

/-- Memories in canonical form that read alike are the same data (log 33). -/
def Obligations.CanonicalMemoriesThatReadAlikeAreEqual : Prop :=
  ∀ m m' : Memory, m.wf = true → m'.wf = true → (∀ a, m.read a = m'.read a) → m = m'
end

