-- ==== Sys2Proof/Laws/Display.lean ====
section
/-! SUPPORT. What the observer and the peripheral share, what is said while `p_undef` is true, and what ends it not. -/

namespace Sys2Proof.Machine

@[simp] theorem Display.observe_reset (d : Display) (mid : Bool) :
    d.observe (.reset mid) = (d.follow (.reset mid)).blockReset := rfl

/-- The observer and the peripheral differ only in what a reset of the block does to them. -/
theorem Display.observe_eq_follow (d : Display) (o : Out) (h : o.isReset = false) : d.observe o = d.follow o := by
  simp [Display.observe, h]

/-- R136: nothing is said while `p_undef` is true. -/
theorem Display.nothing_said (d : Display) (h : d.pUndef = some true) :
    d.pHalf = none ∧ d.pHi = none ∧ d.pAc = none ∧ d.pDdram = [] ∧ ∀ a, d.cell a = .unknown := by
  have hu : d.isUndefined = true := by simp [Display.isUndefined, h]
  simp [Display.pHalf, Display.pHi, Display.pAc, Display.pDdram, Display.cell, hu, Memory.read]

/-- Otherwise what has been followed is said. -/
theorem Display.all_said (d : Display) (h : d.pUndef ≠ some true) :
    d.pHalf = d.half ∧ d.pHi = d.hiHalf ∧ d.pAc = d.ac ∧ d.pDdram = d.cells := by
  simp [Display.pHalf, Display.pHi, Display.pAc, Display.pDdram, Display.isUndefined, h]

@[simp] theorem Display.undefine_pUndef (d : Display) : d.undefine.pUndef = some true := rfl
@[simp] theorem Display.undefine_pIf (d : Display) : d.undefine.pIf = .unknown := rfl
@[simp] theorem Display.undefine_cycled (d : Display) : d.undefine.cycled = false := rfl
@[simp] theorem Display.lose_pIf (d : Display) : d.lose.pIf = .unknown := rfl
@[simp] theorem Display.lose_cycled (d : Display) : d.lose.cycled = false := rfl
@[simp] theorem Display.lose_pUndef (d : Display) : d.lose.pUndef = keepUndef d.pUndef := rfl
@[simp] theorem Display.blockReset_pIf (d : Display) : d.blockReset.pIf = .unknown := rfl
@[simp] theorem Display.blockReset_cycled (d : Display) : d.blockReset.cycled = d.cycled := rfl
@[simp] theorem Display.blockReset_pUndef (d : Display) : d.blockReset.pUndef = keepUndef d.pUndef := rfl
@[simp] theorem Display.powerOn_pUndef (d : Display) : d.powerOn.pUndef = keepUndef d.pUndef := rfl
@[simp] theorem keepUndef_true : keepUndef (some true) = some true := rfl
@[simp] theorem keepUndef_false : keepUndef (some false) = none := rfl
@[simp] theorem keepUndef_none : keepUndef none = none := rfl

/-- Without a power cycle since, no nibble brings an unknown controller to a known interface (U2). -/
theorem Display.latch_unknown (d : Display) (rs : Bool) (n : BitVec 4) (hi : d.pIf = .unknown) (hc : d.cycled = false) :
    d.latch rs n = d := by
  simp [Display.latch, hi, Display.handshake, hc]

/-- Before the lock every latch belongs to a possible handshake. -/
theorem Display.latch_beforeLock (d : Display) (rs : Bool) (n : BitVec 4) (h : d.pIf ≠ .fourBit) :
    d.latch rs n = d.handshake rs n := by
  unfold Display.latch
  cases hi : d.pIf <;> simp_all

/-- A latch that does not complete a handshake is remembered (R131). -/
theorem Display.handshake_remembers (d : Display) (rs : Bool) (n : BitVec 4) (hc : d.cycled = true) (hp : d.ponWaited = true)
    (h : rs = true ∨ n ≠ dataNibble Config.nibFs4 ∨ stage1Seen d.recent = false) :
    d.handshake rs n = { d with recent := ({ rs := rs, nibble := n } :: d.recent).take 3 } := by
  rcases h with h | h | h <;> simp [Display.handshake, hc, hp, h]

/-- `NIB_FS4` after stage 1 locks, whatever was latched before (R131). -/
theorem Display.handshake_locks (d : Display) (hc : d.cycled = true) (hp : d.ponWaited = true) (h : stage1Seen d.recent = true) :
    d.handshake false (dataNibble Config.nibFs4) = d.lock := by
  simp [Display.handshake, hc, hp, h]

/-- Without a power cycle and `T_PON` no latch counts (R168, U2). -/
theorem Display.handshake_ignores (d : Display) (rs : Bool) (n : BitVec 4) (h : d.cycled = false ∨ d.ponWaited = false) :
    d.handshake rs n = d := by
  rcases h with h | h <;> simp [Display.handshake, h]

/-- Whatever happens on the ports but a power cycle, an undefined controller stays undefined and unknown (R136). -/
theorem Display.follow_lost (d : Display) (o : Out) (ho : o ≠ .power)
    (h : d.pUndef = some true ∧ d.pIf = .unknown ∧ d.cycled = false) :
    (d.follow o).pUndef = some true ∧ (d.follow o).pIf = .unknown ∧ (d.follow o).cycled = false := by
  obtain ⟨hu, hi, hc⟩ := h
  cases o with
  | w a b r =>
    cases r with
    | ok =>
      simp only [Display.follow, Display.deliver]
      split <;> first | exact ⟨rfl, rfl, rfl⟩ | exact ⟨hu, hi, hc⟩ | (rw [Display.latch_unknown] <;> first | exact ⟨hu, hi, hc⟩ | assumption)
    | unreachable => exact ⟨rfl, rfl, rfl⟩
    | ioFailure => exact ⟨rfl, rfl, rfl⟩
  | d t => cases t <;> simp only [Display.follow, Display.elapse, Display.hold] <;> (try split) <;> exact ⟨hu, hi, hc⟩
  | hostWait t => cases t <;> simp only [Display.follow, Display.elapse, Display.hold] <;> (try split) <;> exact ⟨hu, hi, hc⟩
  | resp st => exact ⟨hu, hi, hc⟩
  | handed a b => exact ⟨rfl, rfl, rfl⟩
  | reset mid => cases mid <;> first | exact ⟨rfl, rfl, rfl⟩ | exact ⟨hu, hi, hc⟩
  | power => exact absurd rfl ho
  | foreign b => exact ⟨rfl, rfl, rfl⟩

/-- So for the observer. -/
theorem Display.observe_lost (d : Display) (o : Out) (ho : o ≠ .power)
    (h : d.pUndef = some true ∧ d.pIf = .unknown ∧ d.cycled = false) :
    (d.observe o).pUndef = some true ∧ (d.observe o).pIf = .unknown ∧ (d.observe o).cycled = false := by
  obtain ⟨hu, hi, hc⟩ := d.follow_lost o ho h
  unfold Display.observe
  split
  · exact ⟨by simp [hu], rfl, by simp [hc]⟩
  · exact ⟨hu, hi, hc⟩

end Sys2Proof.Machine
end

