-- ==== Sys2Proof/Laws/Events.lean ====
section
/-! SUPPORT. The waits of the event lists. -/

namespace Sys2Proof.Machine

/-- Is the event no wait, or a wait whose minimum is above 0? -/
def Micro.waitsPositive (m : Micro) : Bool :=
  match m.ev with
  | .write _ => true
  | .wait t => 0 < Config.floorNs t

/-- R75: no event is a `Wait(0)`, whatever the operands. -/
theorem eventList_waits_positive (i : Instr) : (eventList i).all Micro.waitsPositive = true := by
  cases i <;> rfl

end Sys2Proof.Machine
end

