-- ==== Sys2Proof/Laws/State.lean ====
section
/-! SUPPORT. One lemma per field of State and per named update (Machine/Ops.lean): no later proof unfolds a record update. -/

namespace Sys2Proof.Machine

@[simp] theorem State.emit_phase (o : Out) (s : State) : (s.emit o).phase = s.phase := rfl
@[simp] theorem State.emit_addr (o : Out) (s : State) : (s.emit o).addr = s.addr := rfl
@[simp] theorem State.emit_bl (o : Out) (s : State) : (s.emit o).bl = s.bl := rfl
@[simp] theorem State.emit_faultCv (o : Out) (s : State) : (s.emit o).faultCv = s.faultCv := rfl
@[simp] theorem State.emit_req (o : Out) (s : State) : (s.emit o).req = s.req := rfl
@[simp] theorem State.emit_useq (o : Out) (s : State) : (s.emit o).useq = s.useq := rfl
@[simp] theorem State.emit_busy (o : Out) (s : State) : (s.emit o).busy = s.busy := rfl
@[simp] theorem State.emit_tx (o : Out) (s : State) : (s.emit o).tx = s.tx := rfl
@[simp] theorem State.emit_result (o : Out) (s : State) : (s.emit o).result = s.result := rfl
@[simp] theorem State.emit_out (o : Out) (s : State) : (s.emit o).out = s.out ++ [o] := rfl
@[simp] theorem State.emit_inputs (o : Out) (s : State) : (s.emit o).inputs = s.inputs := rfl
@[simp] theorem State.emit_answers (o : Out) (s : State) : (s.emit o).answers = s.answers := rfl
@[simp] theorem State.emit_todo (o : Out) (s : State) : (s.emit o).todo = s.todo := rfl
@[simp] theorem State.emit_freeIx (o : Out) (s : State) : (s.emit o).freeIx = s.freeIx := rfl
@[simp] theorem State.emit_lcd (o : Out) (s : State) : (s.emit o).lcd = s.lcd.observe o := rfl
@[simp] theorem State.emit_panel (o : Out) (s : State) : (s.emit o).panel = s.panel.follow o := rfl

@[simp] theorem State.accept_phase (i : Instr) (s : State) : (s.accept i).phase = s.phase := rfl
@[simp] theorem State.accept_addr (i : Instr) (s : State) : (s.accept i).addr = s.addr := rfl
@[simp] theorem State.accept_bl (i : Instr) (s : State) : (s.accept i).bl = s.bl := rfl
@[simp] theorem State.accept_faultCv (i : Instr) (s : State) : (s.accept i).faultCv = s.faultCv := rfl
@[simp] theorem State.accept_req (i : Instr) (s : State) : (s.accept i).req = requestWord i := rfl
@[simp] theorem State.accept_useq (i : Instr) (s : State) : (s.accept i).useq = .running i 0 := rfl
@[simp] theorem State.accept_busy (i : Instr) (s : State) : (s.accept i).busy = true := rfl
@[simp] theorem State.accept_tx (i : Instr) (s : State) : (s.accept i).tx = s.tx := rfl
@[simp] theorem State.accept_result (i : Instr) (s : State) : (s.accept i).result = s.result := rfl
@[simp] theorem State.accept_out (i : Instr) (s : State) : (s.accept i).out = s.out := rfl
@[simp] theorem State.accept_inputs (i : Instr) (s : State) : (s.accept i).inputs = s.inputs := rfl
@[simp] theorem State.accept_answers (i : Instr) (s : State) : (s.accept i).answers = s.answers := rfl
@[simp] theorem State.accept_todo (i : Instr) (s : State) : (s.accept i).todo = s.todo := rfl
@[simp] theorem State.accept_freeIx (i : Instr) (s : State) : (s.accept i).freeIx = s.freeIx := rfl
@[simp] theorem State.accept_lcd (i : Instr) (s : State) : (s.accept i).lcd = s.lcd := rfl
@[simp] theorem State.accept_panel (i : Instr) (s : State) : (s.accept i).panel = s.panel := rfl

@[simp] theorem State.begin_phase (i : Instr) (s : State) : (s.begin i).phase = s.phase := rfl
@[simp] theorem State.begin_addr (i : Instr) (s : State) : (s.begin i).addr = s.addr := rfl
@[simp] theorem State.begin_bl (i : Instr) (s : State) : (s.begin i).bl = s.bl := rfl
@[simp] theorem State.begin_faultCv (i : Instr) (s : State) : (s.begin i).faultCv = s.faultCv := rfl
@[simp] theorem State.begin_req (i : Instr) (s : State) : (s.begin i).req = s.req := rfl
@[simp] theorem State.begin_useq (i : Instr) (s : State) : (s.begin i).useq = .running i 0 := rfl
@[simp] theorem State.begin_busy (i : Instr) (s : State) : (s.begin i).busy = true := rfl
@[simp] theorem State.begin_tx (i : Instr) (s : State) : (s.begin i).tx = s.tx := rfl
@[simp] theorem State.begin_result (i : Instr) (s : State) : (s.begin i).result = s.result := rfl
@[simp] theorem State.begin_out (i : Instr) (s : State) : (s.begin i).out = s.out := rfl
@[simp] theorem State.begin_inputs (i : Instr) (s : State) : (s.begin i).inputs = s.inputs := rfl
@[simp] theorem State.begin_answers (i : Instr) (s : State) : (s.begin i).answers = s.answers := rfl
@[simp] theorem State.begin_todo (i : Instr) (s : State) : (s.begin i).todo = s.todo := rfl
@[simp] theorem State.begin_freeIx (i : Instr) (s : State) : (s.begin i).freeIx = s.freeIx := rfl
@[simp] theorem State.begin_lcd (i : Instr) (s : State) : (s.begin i).lcd = s.lcd := rfl
@[simp] theorem State.begin_panel (i : Instr) (s : State) : (s.begin i).panel = s.panel := rfl

@[simp] theorem State.toIdle_phase (s : State) : (s.toIdle).phase = s.phase := rfl
@[simp] theorem State.toIdle_addr (s : State) : (s.toIdle).addr = s.addr := rfl
@[simp] theorem State.toIdle_bl (s : State) : (s.toIdle).bl = s.bl := rfl
@[simp] theorem State.toIdle_faultCv (s : State) : (s.toIdle).faultCv = s.faultCv := rfl
@[simp] theorem State.toIdle_req (s : State) : (s.toIdle).req = s.req := rfl
@[simp] theorem State.toIdle_useq (s : State) : (s.toIdle).useq = .idle := rfl
@[simp] theorem State.toIdle_busy (s : State) : (s.toIdle).busy = false := rfl
@[simp] theorem State.toIdle_tx (s : State) : (s.toIdle).tx = none := rfl
@[simp] theorem State.toIdle_result (s : State) : (s.toIdle).result = s.result := rfl
@[simp] theorem State.toIdle_out (s : State) : (s.toIdle).out = s.out := rfl
@[simp] theorem State.toIdle_inputs (s : State) : (s.toIdle).inputs = s.inputs := rfl
@[simp] theorem State.toIdle_answers (s : State) : (s.toIdle).answers = s.answers := rfl
@[simp] theorem State.toIdle_todo (s : State) : (s.toIdle).todo = s.todo := rfl
@[simp] theorem State.toIdle_freeIx (s : State) : (s.toIdle).freeIx = s.freeIx := rfl
@[simp] theorem State.toIdle_lcd (s : State) : (s.toIdle).lcd = s.lcd := rfl
@[simp] theorem State.toIdle_panel (s : State) : (s.toIdle).panel = s.panel := rfl

@[simp] theorem State.freeReq_phase (s : State) : (s.freeReq).phase = s.phase := rfl
@[simp] theorem State.freeReq_addr (s : State) : (s.freeReq).addr = s.addr := rfl
@[simp] theorem State.freeReq_bl (s : State) : (s.freeReq).bl = s.bl := rfl
@[simp] theorem State.freeReq_faultCv (s : State) : (s.freeReq).faultCv = s.faultCv := rfl
@[simp] theorem State.freeReq_req (s : State) : (s.freeReq).req = Config.freeReq s.freeIx := rfl
@[simp] theorem State.freeReq_useq (s : State) : (s.freeReq).useq = s.useq := rfl
@[simp] theorem State.freeReq_busy (s : State) : (s.freeReq).busy = s.busy := rfl
@[simp] theorem State.freeReq_tx (s : State) : (s.freeReq).tx = s.tx := rfl
@[simp] theorem State.freeReq_result (s : State) : (s.freeReq).result = s.result := rfl
@[simp] theorem State.freeReq_out (s : State) : (s.freeReq).out = s.out := rfl
@[simp] theorem State.freeReq_inputs (s : State) : (s.freeReq).inputs = s.inputs := rfl
@[simp] theorem State.freeReq_answers (s : State) : (s.freeReq).answers = s.answers := rfl
@[simp] theorem State.freeReq_todo (s : State) : (s.freeReq).todo = s.todo := rfl
@[simp] theorem State.freeReq_freeIx (s : State) : (s.freeReq).freeIx = s.freeIx + 1 := rfl
@[simp] theorem State.freeReq_lcd (s : State) : (s.freeReq).lcd = s.lcd := rfl
@[simp] theorem State.freeReq_panel (s : State) : (s.freeReq).panel = s.panel := rfl

@[simp] theorem State.respond_phase (st : Status) (s : State) : (s.respond st).phase = s.phase := rfl
@[simp] theorem State.respond_addr (st : Status) (s : State) : (s.respond st).addr = s.addr := rfl
@[simp] theorem State.respond_bl (st : Status) (s : State) : (s.respond st).bl = s.bl := rfl
@[simp] theorem State.respond_faultCv (st : Status) (s : State) : (s.respond st).faultCv = s.faultCv := rfl
@[simp] theorem State.respond_req (st : Status) (s : State) : (s.respond st).req = Config.freeReq s.freeIx := rfl
@[simp] theorem State.respond_useq (st : Status) (s : State) : (s.respond st).useq = .idle := rfl
@[simp] theorem State.respond_busy (st : Status) (s : State) : (s.respond st).busy = false := rfl
@[simp] theorem State.respond_tx (st : Status) (s : State) : (s.respond st).tx = none := rfl
@[simp] theorem State.respond_result (st : Status) (s : State) : (s.respond st).result = some st := rfl
@[simp] theorem State.respond_out (st : Status) (s : State) : (s.respond st).out = s.out ++ [.resp st] := rfl
@[simp] theorem State.respond_inputs (st : Status) (s : State) : (s.respond st).inputs = s.inputs := rfl
@[simp] theorem State.respond_answers (st : Status) (s : State) : (s.respond st).answers = s.answers := rfl
@[simp] theorem State.respond_todo (st : Status) (s : State) : (s.respond st).todo = s.todo := rfl
@[simp] theorem State.respond_freeIx (st : Status) (s : State) : (s.respond st).freeIx = s.freeIx + 1 := rfl
@[simp] theorem State.respond_lcd (st : Status) (s : State) : (s.respond st).lcd = s.lcd := rfl
@[simp] theorem State.respond_panel (st : Status) (s : State) : (s.respond st).panel = s.panel := rfl

@[simp] theorem State.release_phase (st : Status) (s : State) : (s.release st).phase = s.phase := rfl
@[simp] theorem State.release_addr (st : Status) (s : State) : (s.release st).addr = s.addr := rfl
@[simp] theorem State.release_bl (st : Status) (s : State) : (s.release st).bl = s.bl := rfl
@[simp] theorem State.release_faultCv (st : Status) (s : State) : (s.release st).faultCv = s.faultCv := rfl
@[simp] theorem State.release_req (st : Status) (s : State) : (s.release st).req = s.req := rfl
@[simp] theorem State.release_useq (st : Status) (s : State) : (s.release st).useq = .idle := rfl
@[simp] theorem State.release_busy (st : Status) (s : State) : (s.release st).busy = false := rfl
@[simp] theorem State.release_tx (st : Status) (s : State) : (s.release st).tx = none := rfl
@[simp] theorem State.release_result (st : Status) (s : State) : (s.release st).result = some st := rfl
@[simp] theorem State.release_out (st : Status) (s : State) : (s.release st).out = s.out := rfl
@[simp] theorem State.release_inputs (st : Status) (s : State) : (s.release st).inputs = s.inputs := rfl
@[simp] theorem State.release_answers (st : Status) (s : State) : (s.release st).answers = s.answers := rfl
@[simp] theorem State.release_todo (st : Status) (s : State) : (s.release st).todo = s.todo := rfl
@[simp] theorem State.release_freeIx (st : Status) (s : State) : (s.release st).freeIx = s.freeIx := rfl
@[simp] theorem State.release_lcd (st : Status) (s : State) : (s.release st).lcd = s.lcd := rfl
@[simp] theorem State.release_panel (st : Status) (s : State) : (s.release st).panel = s.panel := rfl

@[simp] theorem State.contractViolation_phase (s : State) : (s.contractViolation).phase = s.phase := rfl
@[simp] theorem State.contractViolation_addr (s : State) : (s.contractViolation).addr = s.addr := rfl
@[simp] theorem State.contractViolation_bl (s : State) : (s.contractViolation).bl = s.bl := rfl
@[simp] theorem State.contractViolation_faultCv (s : State) : (s.contractViolation).faultCv = true := rfl
@[simp] theorem State.contractViolation_req (s : State) : (s.contractViolation).req = Config.freeReq s.freeIx := rfl
@[simp] theorem State.contractViolation_useq (s : State) : (s.contractViolation).useq = .idle := rfl
@[simp] theorem State.contractViolation_busy (s : State) : (s.contractViolation).busy = false := rfl
@[simp] theorem State.contractViolation_tx (s : State) : (s.contractViolation).tx = none := rfl
@[simp] theorem State.contractViolation_result (s : State) : (s.contractViolation).result = some .contractViolation := rfl
@[simp] theorem State.contractViolation_out (s : State) : (s.contractViolation).out = s.out ++ [.resp .contractViolation] := rfl
@[simp] theorem State.contractViolation_inputs (s : State) : (s.contractViolation).inputs = s.inputs := rfl
@[simp] theorem State.contractViolation_answers (s : State) : (s.contractViolation).answers = s.answers := rfl
@[simp] theorem State.contractViolation_todo (s : State) : (s.contractViolation).todo = s.todo := rfl
@[simp] theorem State.contractViolation_freeIx (s : State) : (s.contractViolation).freeIx = s.freeIx + 1 := rfl
@[simp] theorem State.contractViolation_lcd (s : State) : (s.contractViolation).lcd = s.lcd := rfl
@[simp] theorem State.contractViolation_panel (s : State) : (s.contractViolation).panel = s.panel := rfl

@[simp] theorem State.withNextWord_phase (e : Encoded) (s : State) : (s.withNextWord e).phase = s.phase := rfl
@[simp] theorem State.withNextWord_addr (e : Encoded) (s : State) : (s.withNextWord e).addr = s.addr := rfl
@[simp] theorem State.withNextWord_bl (e : Encoded) (s : State) : (s.withNextWord e).bl = s.bl := rfl
@[simp] theorem State.withNextWord_faultCv (e : Encoded) (s : State) : (s.withNextWord e).faultCv = s.faultCv := rfl
@[simp] theorem State.withNextWord_req (e : Encoded) (s : State) : (s.withNextWord e).req = s.req := rfl
@[simp] theorem State.withNextWord_useq (e : Encoded) (s : State) : (s.withNextWord e).useq = .idle := rfl
@[simp] theorem State.withNextWord_busy (e : Encoded) (s : State) : (s.withNextWord e).busy = false := rfl
@[simp] theorem State.withNextWord_tx (e : Encoded) (s : State) : (s.withNextWord e).tx = none := rfl
@[simp] theorem State.withNextWord_result (e : Encoded) (s : State) : (s.withNextWord e).result = s.result := rfl
@[simp] theorem State.withNextWord_out (e : Encoded) (s : State) : (s.withNextWord e).out = s.out := rfl
@[simp] theorem State.withNextWord_inputs (e : Encoded) (s : State) : (s.withNextWord e).inputs = .word e :: s.inputs := rfl
@[simp] theorem State.withNextWord_answers (e : Encoded) (s : State) : (s.withNextWord e).answers = s.answers := rfl
@[simp] theorem State.withNextWord_todo (e : Encoded) (s : State) : (s.withNextWord e).todo = [] := rfl
@[simp] theorem State.withNextWord_freeIx (e : Encoded) (s : State) : (s.withNextWord e).freeIx = s.freeIx := rfl
@[simp] theorem State.withNextWord_lcd (e : Encoded) (s : State) : (s.withNextWord e).lcd = s.lcd := rfl
@[simp] theorem State.withNextWord_panel (e : Encoded) (s : State) : (s.withNextWord e).panel = s.panel := rfl

/-! `advance` changes `tx`, `useq` and `phase`. -/

@[simp] theorem State.advance_phase (p : Option Phase) (s : State) : (s.advance p).phase = p.getD s.phase := rfl
@[simp] theorem State.advance_addr (p : Option Phase) (s : State) : (s.advance p).addr = s.addr := rfl
@[simp] theorem State.advance_bl (p : Option Phase) (s : State) : (s.advance p).bl = s.bl := rfl
@[simp] theorem State.advance_faultCv (p : Option Phase) (s : State) : (s.advance p).faultCv = s.faultCv := rfl
@[simp] theorem State.advance_req (p : Option Phase) (s : State) : (s.advance p).req = s.req := rfl
theorem State.advance_useq (p : Option Phase) (s : State) (i : Instr) (k : Nat) (h : s.useq = .running i k) :
    (s.advance p).useq = .running i (k + 1) := by simp [State.advance, Useq.next, h]
@[simp] theorem State.advance_busy (p : Option Phase) (s : State) : (s.advance p).busy = s.busy := rfl
@[simp] theorem State.advance_tx (p : Option Phase) (s : State) : (s.advance p).tx = none := rfl
@[simp] theorem State.advance_result (p : Option Phase) (s : State) : (s.advance p).result = s.result := rfl
@[simp] theorem State.advance_out (p : Option Phase) (s : State) : (s.advance p).out = s.out := rfl
@[simp] theorem State.advance_inputs (p : Option Phase) (s : State) : (s.advance p).inputs = s.inputs := rfl
@[simp] theorem State.advance_answers (p : Option Phase) (s : State) : (s.advance p).answers = s.answers := rfl
@[simp] theorem State.advance_todo (p : Option Phase) (s : State) : (s.advance p).todo = s.todo := rfl
@[simp] theorem State.advance_freeIx (p : Option Phase) (s : State) : (s.advance p).freeIx = s.freeIx := rfl
@[simp] theorem State.advance_lcd (p : Option Phase) (s : State) : (s.advance p).lcd = s.lcd := rfl
@[simp] theorem State.advance_panel (p : Option Phase) (s : State) : (s.advance p).panel = s.panel := rfl

/-! What is running decides how it ends. -/

theorem State.conclude_request (st : Status) (s : State) (i : Instr) (k : Nat) (h : s.useq = .running i k)
    (hi : i.isRequest = true) : s.conclude st = s.respond st := by
  simp [State.conclude, h, hi]

theorem State.conclude_subOperation (st : Status) (s : State) (i : Instr) (k : Nat) (h : s.useq = .running i k)
    (hi : i.isRequest = false) : s.conclude st = s.release st := by
  simp [State.conclude, h, hi]

theorem State.finish_busy (s : State) (hb : s.busy = true) (ht : s.tx = none) : s.finish = s.conclude .ok := by
  simp [State.finish, hb, ht]

theorem State.finish_waiting (s : State) (t : TxWrite) (ht : s.tx = some t) : s.finish = s := by
  simp [State.finish, ht]

theorem State.finish_idle (s : State) (hb : s.busy = false) : s.finish = s := by
  simp [State.finish, hb]

theorem State.offer_busy (start : State → State) (s : State) (hb : s.busy = true) : s.offer start = s := by
  simp [State.offer, hb]

theorem State.offer_idle (start : State → State) (s : State) (hb : s.busy = false) : s.offer start = (start s).resume := by
  simp [State.offer, hb]

end Sys2Proof.Machine
end

