-- ==== Sys2Proof/Laws/Ops.lean ====
section
/-! SUPPORT. What the event engine can do, said once: `runEvents` is the events played against the answers of the transport
(`runEvents_eq_play`), and the plays that occur: all answers Ok, and the concatenation of two lists. -/

namespace Sys2Proof.Machine

/-- How a run of events ends. -/
inductive Ending where
  | done
  | waiting (w : Byte)
  | failed (st : Status)
deriving DecidableEq, Repr

/-- What a run of events leaves: what it put on the ports, the answers left, how many events completed, the phase. -/
structure Play where
  out : List Out
  rest : List (BitVec 2)
  count : Nat
  phase : Phase
  ending : Ending
deriving DecidableEq, Repr

/-- One more completed event before a play. -/
def Play.cons (o : Out) (p : Play) : Play := { p with out := o :: p.out, count := p.count + 1 }

/-- The events played against the answers. -/
def play (addr : Byte) (bl : Bool) : Phase → List Micro → List (BitVec 2) → Play
  | ph, [], as => ⟨[], as, 0, ph, .done⟩
  | ph, m :: ms, as =>
    match m.ev with
    | .wait t => (play addr bl (m.phaseAfter.getD ph) ms as).cons (.d t)
    | .write w =>
      match as with
      | [] => ⟨[], [], 0, ph, .waiting (w.word bl)⟩
      | c :: cs =>
        match TxResult.ofCode c with
        | .ok => (play addr bl (m.phaseAfter.getD ph) ms cs).cons (.w addr (w.word bl) .ok)
        | .unreachable => ⟨[.w addr (w.word bl) .unreachable], cs, 0, ph, .failed .unreachable⟩
        | .ioFailure => ⟨[.w addr (w.word bl) .ioFailure], cs, 0, ph, .failed .ioFailure⟩

/-- `USEQ` after so many more events. -/
def Useq.add (n : Nat) : Useq → Useq
  | .idle => .idle
  | .running i k => .running i (k + n)

/-- The state after a play, before its ending. -/
def State.played (p : Play) (s : State) : State :=
  { s with
    answers := p.rest, out := s.out ++ p.out, lcd := s.lcd.observeAll p.out,
    panel := s.panel.followAll p.out, phase := p.phase, useq := s.useq.add p.count
    tx := if p.count = 0 then s.tx else none }

/-- The state after a play. -/
def State.afterPlay (p : Play) (s : State) : State :=
  match p.ending with
  | .done => s.played p
  | .waiting w => { s.played p with tx := some ⟨s.addr, w⟩ }
  | .failed st => (s.played p).busError st

@[simp] theorem Useq.add_zero (u : Useq) : u.add 0 = u := by cases u <;> rfl

@[simp] theorem Display.observeAll_nil (d : Display) : d.observeAll [] = d := rfl

@[simp] theorem Display.observeAll_cons (d : Display) (o : Out) (l : List Out) :
    d.observeAll (o :: l) = (d.observe o).observeAll l := rfl

@[simp] theorem Display.followAll_nil (d : Display) : d.followAll [] = d := rfl

@[simp] theorem Display.followAll_cons (d : Display) (o : Out) (l : List Out) :
    d.followAll (o :: l) = (d.follow o).followAll l := rfl

theorem Display.followAll_append (d : Display) (l l' : List Out) :
    d.followAll (l ++ l') = (d.followAll l).followAll l' := by
  simp [Display.followAll]

theorem Display.observeAll_append (d : Display) (l l' : List Out) :
    d.observeAll (l ++ l') = (d.observeAll l).observeAll l' := by
  simp [Display.observeAll]

/-- Two successive events: the second play starts where the first event left the state. -/
theorem State.played_cons (p : Play) (o : Out) (ph : Option Phase) (rest : List (BitVec 2)) (s : State) :
    ((({ s with answers := rest }).emit o).advance ph).played p = s.played (p.cons o) := by
  have hu : s.useq.next.add p.count = s.useq.add (p.count + 1) := by
    cases s.useq <;> simp [Useq.next, Useq.add, Nat.add_comm, Nat.add_left_comm]
  simp only [State.played, State.emit, State.advance, Play.cons, List.append_assoc, List.singleton_append,
    Display.observeAll_cons, Display.followAll_cons, hu]
  simp

theorem Play.cons_ending (o : Out) (p : Play) : (p.cons o).ending = p.ending := rfl

theorem State.afterPlay_cons (p : Play) (o : Out) (ph : Option Phase) (rest : List (BitVec 2)) (s : State) :
    ((({ s with answers := rest }).emit o).advance ph).afterPlay p = s.afterPlay (p.cons o) := by
  simp only [State.afterPlay, State.played_cons, Play.cons_ending]
  cases p.ending <;> rfl

/-- `busError` forgets `tx` where something is running. -/
theorem State.busError_tx (st : Status) (s : State) (t : Option TxWrite) (i : Instr) (k : Nat) (h : s.useq = .running i k) :
    ({ s with tx := t }).busError st = s.busError st := by
  simp only [State.busError, State.phaseAfterAbort, State.conclude, h]
  split <;> rfl

/-- The engine is the play. -/
theorem runEvents_eq_play (l : List Micro) (s : State) :
    runEvents l s = s.afterPlay (play s.addr s.bl s.phase l s.answers) := by
  induction l generalizing s with
  | nil => simp [runEvents, play, State.afterPlay, State.played]
  | cons m ms ih =>
    obtain ⟨ev, ph⟩ := m
    cases ev with
    | wait t =>
      have := ih ((s.emit (.d t)).advance ph)
      simp only [runEvents, State.doEvent, play]
      rw [this]
      exact State.afterPlay_cons _ _ _ s.answers s
    | write w =>
      simp only [runEvents, State.doEvent, play, State.busWrite]
      cases ha : s.answers with
      | nil => simp [State.afterPlay, State.played]
      | cons c cs =>
        simp only
        cases hc : TxResult.ofCode c with
        | ok =>
          simp only
          rw [ih]
          exact State.afterPlay_cons _ _ _ cs s
        | unreachable => simp [State.afterPlay, State.played, State.emit]
        | ioFailure => simp [State.afterPlay, State.played, State.emit]

/-- The bus writes of an event list. -/
def writesOf (l : List Micro) : Nat := l.countP (fun m => match m.ev with | .write _ => true | .wait _ => false)

/-- The trace of an event list when every answer is Ok. -/
def okTrace (addr : Byte) (bl : Bool) (l : List Micro) : List Out :=
  l.map (fun m => match m.ev with | .write w => .w addr (w.word bl) .ok | .wait t => .d t)

/-- The phase after an event list. -/
def phaseAfter (ph : Phase) (l : List Micro) : Phase := l.foldl (fun p m => m.phaseAfter.getD p) ph

/-- All answers Ok: every event completes. -/
theorem play_all_ok (addr : Byte) (bl : Bool) (ph : Phase) (l : List Micro) (rest : List (BitVec 2)) :
    play addr bl ph l (List.replicate (writesOf l) 0 ++ rest) =
      ⟨okTrace addr bl l, rest, l.length, phaseAfter ph l, .done⟩ := by
  induction l generalizing ph with
  | nil => rfl
  | cons m ms ih =>
    obtain ⟨ev, p⟩ := m
    cases ev with
    | wait t =>
      have hw : writesOf (⟨.wait t, p⟩ :: ms) = writesOf ms := by simp [writesOf]
      simp only [play, hw, ih]
      rfl
    | write w =>
      have hw : writesOf (⟨.write w, p⟩ :: ms) = writesOf ms + 1 := by simp [writesOf]
      simp only [play, hw, List.replicate_succ, List.cons_append]
      have h0 : TxResult.ofCode 0 = .ok := rfl
      simp only [h0, ih]
      rfl

/-- A play of two lists: the second goes on where the first is done. -/
theorem play_append (addr : Byte) (bl : Bool) (ph : Phase) (l l' : List Micro) (as : List (BitVec 2)) :
    play addr bl ph (l ++ l') as =
      (let p := play addr bl ph l as
       match p.ending with
       | .done =>
         let q := play addr bl p.phase l' p.rest
         ⟨p.out ++ q.out, q.rest, p.count + q.count, q.phase, q.ending⟩
       | .waiting _ => p
       | .failed _ => p) := by
  induction l generalizing ph as with
  | nil => simp [play]
  | cons m ms ih =>
    obtain ⟨ev, p⟩ := m
    cases ev with
    | wait t =>
      simp only [List.cons_append, play, ih, Play.cons]
      cases h : (play addr bl (p.getD ph) ms as).ending <;> simp [h, Nat.add_right_comm]
    | write w =>
      simp only [List.cons_append, play]
      cases as with
      | nil => simp
      | cons c cs =>
        simp only
        cases TxResult.ofCode c with
        | ok =>
          simp only [ih, Play.cons]
          cases h : (play addr bl (p.getD ph) ms cs).ending <;> simp [h, Nat.add_right_comm]
        | unreachable => simp
        | ioFailure => simp

/-- A play of waits and answered writes leaves `Display` as the observer sees what it put on the ports. -/
theorem State.afterPlay_lcd (p : Play) (s : State) (h : ∀ st, p.ending ≠ .failed st) :
    (s.afterPlay p).lcd = s.lcd.observeAll p.out := by
  cases hp : p.ending with
  | done => simp [State.afterPlay, hp, State.played]
  | waiting w => simp [State.afterPlay, hp, State.played]
  | failed st => exact absurd hp (h st)

/-- So does the peripheral. -/
theorem State.afterPlay_panel (p : Play) (s : State) (h : ∀ st, p.ending ≠ .failed st) :
    (s.afterPlay p).panel = s.panel.followAll p.out := by
  cases hp : p.ending with
  | done => simp [State.afterPlay, hp, State.played]
  | waiting w => simp [State.afterPlay, hp, State.played]
  | failed st => exact absurd hp (h st)

/-- What `resume` does to an operation whose answers are all Ok. -/
theorem State.resume_all_ok (s : State) (i : Instr) (rest : List (BitVec 2)) (hb : s.busy = true)
    (hu : s.useq = .running i 0) (ht : s.tx = none) (ha : s.answers = List.replicate (writesOf (eventList i)) 0 ++ rest) :
    s.resume =
      ({ s with
          answers := rest, out := s.out ++ okTrace s.addr s.bl (eventList i)
          lcd := s.lcd.observeAll (okTrace s.addr s.bl (eventList i))
          panel := s.panel.followAll (okTrace s.addr s.bl (eventList i))
          phase := phaseAfter s.phase (eventList i), useq := .running i (eventList i).length } : State).conclude .ok := by
  have hr : s.remaining = eventList i := by simp [State.remaining, hu]
  rw [State.resume, hr, runEvents_eq_play, ha, play_all_ok]
  rw [State.finish_busy]
  · simp only [State.afterPlay, State.played, hu, ht, Useq.add, Nat.zero_add, ite_self]
  · simpa [State.afterPlay, State.played] using hb
  · simp [State.afterPlay, State.played, ht]

/-- The phase after a play. -/
theorem play_phase (a : Byte) (bl : Bool) (ph : Phase) (l : List Micro) (as : List (BitVec 2)) :
  (play a bl ph l as).phase = phaseAfter ph (l.take (play a bl ph l as).count) := by
  induction l generalizing ph as with
  | nil => simp [play, phaseAfter]
  | cons m ms ih =>
    obtain ⟨ev, p⟩ := m
    cases ev with
    | wait t => simp only [play, Play.cons, ih (p.getD ph) as]; simp [phaseAfter]
    | write w =>
      cases as with
      | nil => simp [play, phaseAfter]
      | cons c cs =>
        simp only [play]
        cases TxResult.ofCode c
        · simp only [Play.cons, ih (p.getD ph) cs]; simp [phaseAfter]
        · simp [phaseAfter]
        · simp [phaseAfter]

/-- A play that is done has completed every event. -/
theorem play_done (a : Byte) (bl : Bool) (ph : Phase) (l : List Micro) (as : List (BitVec 2)) (h : (play a bl ph l as).ending = .done) :
  (play a bl ph l as).count = l.length := by
  induction l generalizing ph as with
  | nil => rfl
  | cons m ms ih =>
    obtain ⟨ev, p⟩ := m
    cases ev with
    | wait t => simp only [play, Play.cons] at h ⊢; rw [ih _ _ h]; rfl
    | write w =>
      cases as with
      | nil => simp [play] at h
      | cons c cs =>
        simp only [play] at h ⊢
        cases hc : TxResult.ofCode c <;> simp [hc, Play.cons] at h ⊢
        rw [ih _ _ h]

/-- A play that waits stands at a bus write with no answers left, and goes on from there. -/
theorem play_waiting (a : Byte) (bl : Bool) (ph : Phase) (l : List Micro) (as : List (BitVec 2)) (x) (h : (play a bl ph l as).ending = .waiting x) :
  (∃ w p, l[(play a bl ph l as).count]? = some ⟨.write w, p⟩ ∧ x = w.word bl) ∧ (play a bl ph l as).rest = [] ∧
  ∀ b, play a bl ph l (as ++ b) = 
     (let p := play a bl ph l as
      let q := play a bl p.phase (l.drop p.count) b
      ⟨p.out ++ q.out, q.rest, p.count + q.count, q.phase, q.ending⟩) := by
  induction l generalizing ph as with
  | nil => simp [play] at h
  | cons m ms ih =>
    obtain ⟨ev, p⟩ := m
    cases ev with
    | wait t =>
      simp only [play, Play.cons] at h ⊢
      obtain ⟨⟨w, q, h1, h2⟩, h3, h4⟩ := ih _ _ h
      refine ⟨⟨w, q, by simpa using h1, h2⟩, h3, fun b => ?_⟩
      rw [h4]; simp [Nat.add_right_comm]
    | write w =>
      cases as with
      | nil =>
        simp [play] at h
        refine ⟨⟨w, p, by simp [play], h.symm⟩, by simp [play], fun b => ?_⟩
        simp [play]
      | cons c cs =>
        simp only [play, List.cons_append] at h ⊢
        cases hc : TxResult.ofCode c <;> simp only [hc, Play.cons] at h ⊢ <;> try simp at h
        obtain ⟨⟨w, q, h1, h2⟩, h3, h4⟩ := ih _ _ h
        refine ⟨⟨w, q, by simpa using h1, h2⟩, h3, fun b => ?_⟩
        rw [h4]; simp [Nat.add_right_comm]

/-- What ends leaves the sequencer idle and the registers as they were. -/
theorem State.conclude_running (st) (s : State) (i k) (h : s.useq = .running i k) : (s.conclude st).busy = false ∧ (s.conclude st).useq = .idle ∧ (s.conclude st).tx = none ∧ (s.conclude st).phase = s.phase ∧ (s.conclude st).todo = s.todo := by
  unfold State.conclude; rw [h]; simp only; split <;> exact ⟨rfl, rfl, rfl, rfl, rfl⟩

/-- Everything `resume` can do to an operation with events left: wait at a bus write, end with Ok, end with a bus error. -/
theorem State.resume_cases (s : State) (i : Instr) (k : Nat) (hb : s.busy = true) (hu : s.useq = .running i k) (hl : (eventList i).drop k ≠ []) :
  (∃ x, (play s.addr s.bl s.phase ((eventList i).drop k) s.answers).ending = .waiting x ∧
     s.resume = { s.played (play s.addr s.bl s.phase ((eventList i).drop k) s.answers) with tx := some ⟨s.addr, x⟩ }) ∨
  ((play s.addr s.bl s.phase ((eventList i).drop k) s.answers).ending = .done ∧ s.resume = (s.played (play s.addr s.bl s.phase ((eventList i).drop k) s.answers)).conclude .ok) ∨
  (∃ st, (play s.addr s.bl s.phase ((eventList i).drop k) s.answers).ending = .failed st ∧ s.resume = (s.played (play s.addr s.bl s.phase ((eventList i).drop k) s.answers)).busError st) := by
  have hr : s.remaining = (eventList i).drop k := by simp [State.remaining, hu]
  unfold State.resume
  rw [hr, runEvents_eq_play]
  cases he : (play s.addr s.bl s.phase ((eventList i).drop k) s.answers).ending with
  | waiting x =>
    left; refine ⟨x, rfl, ?_⟩
    simp [State.afterPlay, he, State.finish]
  | done =>
    right; left; refine ⟨rfl, ?_⟩
    have := play_done _ _ _ _ _ he
    have hne : (play s.addr s.bl s.phase ((eventList i).drop k) s.answers).count ≠ 0 := by
      rw [this]; simp at hl ⊢; omega
    simp only [State.afterPlay, he, State.finish]
    rw [if_pos]
    simp [State.played, hb, hne]
  | failed st =>
    right; right; refine ⟨st, rfl, ?_⟩
    simp only [State.afterPlay, he]
    rw [State.finish_idle]
    simp only [State.busError]
    exact (State.conclude_running st _ i _ (by simp [State.played, hu, Useq.add]; rfl)).1

end Sys2Proof.Machine
end

