-- ==== Sys2Proof/Laws/Frame.lean ====
section
/-! SUPPORT. What every operation of the sequencer keeps, said once: it takes no input, consumes answers from the front, adds to
the record, changes the peripheral and its observer as the record says, and clears no violation flag. -/

namespace Sys2Proof.Machine

/-- `t` comes after `s` by operations of the sequencer. -/
structure Grown (s t : State) : Prop where
  inputs : t.inputs = s.inputs
  record : ∃ tr used, t.out = s.out ++ tr ∧ s.answers = used ++ t.answers ∧ t.lcd = s.lcd.observeAll tr ∧
    t.panel = s.panel.followAll tr
  violation : s.faultCv = true → t.faultCv = true

theorem Grown.refl (s : State) : Grown s s := ⟨rfl, ⟨[], [], by simp, by simp, rfl, rfl⟩, id⟩

theorem Grown.trans {s t u : State} (a : Grown s t) (b : Grown t u) : Grown s u := by
  obtain ⟨a1, ⟨tr, us, h1, h2, h3, h4⟩, a3⟩ := a
  obtain ⟨b1, ⟨tr', us', h1', h2', h3', h4'⟩, b3⟩ := b
  exact ⟨b1.trans a1, ⟨tr ++ tr', us ++ us', by simp [h1', h1], by simp [h2, h2'],
    by rw [h3', h3, Display.observeAll_append], by rw [h4', h4, Display.followAll_append]⟩, fun h => b3 (a3 h)⟩

/-- A change of registers alone. -/
theorem Grown.of_eq (s t : State) (hi : t.inputs = s.inputs) (ho : t.out = s.out) (ha : t.answers = s.answers)
    (hl : t.lcd = s.lcd) (hp : t.panel = s.panel) (hc : s.faultCv = true → t.faultCv = true) : Grown s t :=
  ⟨hi, ⟨[], [], by simp [ho], by simp [ha], by simp [hl], by simp [hp]⟩, hc⟩

theorem grown_emit (o : Out) (s : State) : Grown s (s.emit o) := ⟨rfl, ⟨[o], [], rfl, rfl, rfl, rfl⟩, id⟩

theorem grown_respond (st : Status) (s : State) : Grown s (s.respond st) := ⟨rfl, ⟨[.resp st], [], rfl, rfl, rfl, rfl⟩, id⟩

theorem grown_conclude (st : Status) (s : State) : Grown s (s.conclude st) := by
  unfold State.conclude
  split
  · split
    · exact grown_respond st s
    · exact Grown.of_eq _ _ rfl rfl rfl rfl rfl id
  · exact Grown.refl s

theorem grown_contractViolation (s : State) : Grown s s.contractViolation :=
  ⟨rfl, ⟨[.resp .contractViolation], [], rfl, rfl, rfl, rfl⟩, fun _ => rfl⟩

theorem grown_busError (st : Status) (s : State) : Grown s (s.busError st) :=
  (Grown.of_eq s { s with phase := s.phaseAfterAbort } rfl rfl rfl rfl rfl id).trans (grown_conclude st _)

theorem grown_busWrite (w : BusWord) (p : Option Phase) (s : State) : Grown s (s.busWrite w p).1 := by
  unfold State.busWrite
  split
  · exact Grown.of_eq _ _ rfl rfl rfl rfl rfl id
  · rename_i c rest hc
    have h : ∀ o, Grown s ({ s with answers := rest }.emit o) := fun o => ⟨rfl, ⟨[o], [c], rfl, hc, rfl, rfl⟩, id⟩
    split
    · exact (h _).trans (Grown.of_eq _ _ rfl rfl rfl rfl rfl id)
    · exact (h _).trans (grown_busError _ _)
    · exact (h _).trans (grown_busError _ _)

theorem grown_doEvent (m : Micro) (s : State) : Grown s (s.doEvent m).1 := by
  unfold State.doEvent
  split
  · exact grown_busWrite _ _ _
  · exact (grown_emit _ _).trans (Grown.of_eq _ _ rfl rfl rfl rfl rfl id)

theorem grown_runEvents (l : List Micro) (s : State) : Grown s (runEvents l s) := by
  induction l generalizing s with
  | nil => exact Grown.refl s
  | cons m ms ih =>
    have := grown_doEvent m s
    unfold runEvents
    split <;> rename_i h <;> rw [h] at this
    · exact this.trans (ih _)
    · exact this

theorem grown_finish (s : State) : Grown s s.finish := by
  unfold State.finish
  split
  · exact grown_conclude _ _
  · exact Grown.refl s

theorem grown_resume (s : State) : Grown s s.resume := (grown_runEvents _ _).trans (grown_finish _)

theorem grown_accept (i : Instr) (s : State) : Grown s (s.accept i) := Grown.of_eq _ _ rfl rfl rfl rfl rfl id

theorem grown_acceptConfigured (i : Instr) (ok : Bool) (s : State) : Grown s (s.acceptConfigured i ok) := by
  unfold State.acceptConfigured
  split
  · split
    · exact grown_accept i s
    · exact (grown_accept i s).trans (grown_contractViolation _)
  · exact (grown_accept i s).trans (grown_contractViolation _)

theorem grown_acceptBacklight (i : Instr) (on : Bool) (s : State) : Grown s (s.acceptBacklight i on) := by
  unfold State.acceptBacklight
  split
  · exact (grown_accept i s).trans (Grown.of_eq _ { s.accept i with bl := on } rfl rfl rfl rfl rfl id)
  · exact (grown_accept i s).trans (grown_contractViolation _)

theorem grown_acceptInit (addr : Byte) (s : State) : Grown s (acceptInit addr s) := by
  unfold acceptInit
  split
  · exact (grown_accept (.init addr) s).trans (Grown.of_eq _ { s.accept (.init addr) with addr := addr } rfl rfl rfl rfl rfl id)
  · exact (grown_accept (.init addr) s).trans (grown_contractViolation _)

theorem grown_acceptRequest (i : Instr) (s : State) : Grown s (acceptRequest i s) := by
  cases i with
  | init addr => exact grown_acceptInit addr s
  | clear => exact grown_acceptConfigured _ _ s
  | setCursor col row => exact grown_acceptConfigured _ _ s
  | putc code => exact grown_acceptConfigured _ _ s
  | backlightOn => exact grown_acceptBacklight _ _ s
  | backlightOff => exact grown_acceptBacklight _ _ s
  | reserved w => exact (grown_accept (.reserved w) s).trans (grown_contractViolation _)
  | print text col row => exact Grown.refl s
  | teardown => exact Grown.refl s
  | writeWord d blb e rs => exact Grown.refl s
  | nibFs8 => exact Grown.refl s
  | nibFs4 => exact Grown.refl s
  | cmdFunctionSet => exact Grown.refl s
  | cmdDisplayCtrl => exact Grown.refl s
  | cmdClear => exact Grown.refl s
  | cmdEntryMode => exact Grown.refl s
  | cmdSetDdram addr7 => exact Grown.refl s
  | data code => exact Grown.refl s
  | blWord blb => exact Grown.refl s

theorem grown_runTodo (l : List Instr) (s : State) : Grown s (runTodo l s) := by
  induction l generalizing s with
  | nil => exact Grown.of_eq _ _ rfl rfl rfl rfl rfl id
  | cons i rest ih =>
    have h := (grown_acceptRequest i s).trans (grown_resume _)
    simp only [runTodo]
    split
    · exact h.trans (Grown.of_eq _ _ rfl rfl rfl rfl rfl id)
    · split
      · exact h.trans (ih _)
      · exact h.trans (Grown.of_eq _ _ rfl rfl rfl rfl rfl id)

theorem grown_carryOn (s : State) : Grown s s.carryOn := by
  have h := grown_resume s
  simp only [State.carryOn]
  split
  · exact h
  · split
    · exact h.trans (grown_runTodo _ _)
    · exact h.trans (Grown.of_eq _ _ rfl rfl rfl rfl rfl id)

end Sys2Proof.Machine
end

