-- ==== Sys2Proof/Laws/Memory.lean ====
section
/-! SUPPORT. The laws of byte memory: read after write, and the canonical form is kept. -/

namespace Sys2Proof.Machine

theorem Memory.read_write_same (m : Memory) (a : Nat) (x : Byte) : (m.write a x).read a = some x := by
  induction m with
  | nil => simp [Memory.write, Memory.read]
  | cons c rest ih =>
    obtain ⟨b, y⟩ := c
    simp only [Memory.write]
    split
    · simp [Memory.read]
    · split
      · simp [Memory.read, *]
      · simp only [Memory.read, ih]
        rw [if_neg (by omega)]

theorem Memory.read_write_other (m : Memory) (a a' : Nat) (x : Byte) (h : a' ≠ a) : (m.write a x).read a' = m.read a' := by
  induction m with
  | nil => simp [Memory.write, Memory.read]; omega
  | cons c rest ih =>
    obtain ⟨b, y⟩ := c
    simp only [Memory.write]
    split
    · simp only [Memory.read]; rw [if_neg (by omega)]
    · split
      · simp only [Memory.read]; rw [if_neg (by omega), if_neg (by omega)]
      · simp only [Memory.read, ih]

theorem Memory.risingFrom_write (m : Memory) (lower a : Nat) (x : Byte) (hm : m.risingFrom lower = true) (ha : lower ≤ a) :
    (m.write a x).risingFrom lower = true := by
  induction m generalizing lower with
  | nil => simp [Memory.write, Memory.risingFrom, ha]
  | cons c rest ih =>
    obtain ⟨b, y⟩ := c
    simp only [Memory.risingFrom, Bool.and_eq_true, decide_eq_true_eq] at hm
    simp only [Memory.write]
    split
    · simp only [Memory.risingFrom, Bool.and_eq_true, decide_eq_true_eq]; exact ⟨ha, by omega, hm.2⟩
    · split
      · simp only [Memory.risingFrom, Bool.and_eq_true, decide_eq_true_eq]; exact hm
      · simp only [Memory.risingFrom, Bool.and_eq_true, decide_eq_true_eq]; exact ⟨hm.1, ih (b + 1) hm.2 (by omega)⟩

theorem Memory.write_addresses (m : Memory) (a : Nat) (x : Byte) (ha : a < 128) (hm : m.all (fun c => c.1 < 128) = true) :
    (m.write a x).all (fun c => c.1 < 128) = true := by
  induction m with
  | nil => simpa [Memory.write] using ha
  | cons c rest ih =>
    obtain ⟨b, y⟩ := c
    simp only [List.all_cons, Bool.and_eq_true, decide_eq_true_eq] at hm
    simp only [Memory.write]
    split
    · simp only [List.all_cons, Bool.and_eq_true, decide_eq_true_eq]; exact ⟨ha, hm⟩
    · split
      · simp only [List.all_cons, Bool.and_eq_true, decide_eq_true_eq]; exact hm
      · simp only [List.all_cons, Bool.and_eq_true, decide_eq_true_eq]; exact ⟨hm.1, ih hm.2⟩

/-- A write of a DDRAM address keeps the canonical form. -/
theorem Memory.write_wf (m : Memory) (a : Nat) (x : Byte) (ha : a < 128) (hm : m.wf = true) : (m.write a x).wf = true := by
  simp only [Memory.wf, Bool.and_eq_true] at hm ⊢
  exact ⟨m.risingFrom_write 0 a x hm.1 (Nat.zero_le a), m.write_addresses a x ha hm.2⟩

end Sys2Proof.Machine
end

