-- ==== Sys2Proof/Laws/Operands.lean ====
section
/-! SUPPORT. The range check of SET_CURSOR in the spec's words. -/

namespace Sys2Proof.Machine

/-- R100: `col <= 15` and `row <= 1`. -/
theorem cursorInRange_eq (col row : Byte) :
    cursorInRange col row = (decide (col.toNat ≤ 15) && decide (row.toNat ≤ 1)) := by
  rw [Bool.eq_iff_iff]
  simp only [cursorInRange, Bool.and_eq_true, decide_eq_true_eq]
  show col.toNat < 16 ∧ row.toNat < 2 ↔ _
  omega

end Sys2Proof.Machine
end

