-- ==== Sys2Proof/Laws/PerInstr.lean ====
section
/-! SUPPORT. Facts about every instruction as data, one lemma per constructor. -/

namespace Sys2Proof.Laws.EncodedLength

/-- An instruction encodes to as many words as it expands to: one, or those of the requests the host issues for it (R70, R71). -/
def Statement (i : Instr) : Prop := (encode i).length = (expand i).length

theorem init (addr : Byte) : Statement (.init addr) := rfl
theorem clear : Statement .clear := rfl
theorem setCursor (col row : Byte) : Statement (.setCursor col row) := rfl
theorem putc (code : Byte) : Statement (.putc code) := rfl
theorem backlightOn : Statement .backlightOn := rfl
theorem backlightOff : Statement .backlightOff := rfl
theorem reserved (word : BitVec 24) : Statement (.reserved word) := rfl

theorem print (text : List Byte) (col row : Byte) : Statement (.print text col row) := by
  have h : ∀ l : List Byte, ((l.map Instr.putc).flatMap encodeOne).length = (l.map Instr.putc).length := by
    intro l
    induction l with
    | nil => rfl
    | cons c rest ih => simpa [encodeOne] using ih
  simp [Statement, encode, expand, encodeOne, h]

theorem teardown : Statement .teardown := rfl
theorem writeWord (d : BitVec 4) (blb e rs : Bool) : Statement (.writeWord d blb e rs) := rfl
theorem nibFs8 : Statement .nibFs8 := rfl
theorem nibFs4 : Statement .nibFs4 := rfl
theorem cmdFunctionSet : Statement .cmdFunctionSet := rfl
theorem cmdDisplayCtrl : Statement .cmdDisplayCtrl := rfl
theorem cmdClear : Statement .cmdClear := rfl
theorem cmdEntryMode : Statement .cmdEntryMode := rfl
theorem cmdSetDdram (addr7 : BitVec 7) : Statement (.cmdSetDdram addr7) := rfl
theorem data (code : Byte) : Statement (.data code) := rfl
theorem blWord (blb : Bool) : Statement (.blWord blb) := rfl

end Sys2Proof.Laws.EncodedLength
end

