-- ==== Sys2Proof/Tests/Slice0.lean ====
section
/-! SUPPORT. Tests on fixed values. The expected values are those of spec/95_test_vectors.md (named V, P) and of the opcode
table's encodings, written out by hand. After them, for each statement with hypotheses, a state and operands that meet all of
them (`witness_…`), at the ends of the ranges. -/

namespace Sys2Proof.Tests

open Sys2Proof Sys2Proof.Machine Sys2Proof.Spec

/-- The next state, or the reset state where there is none. -/
def nextOf : Host.Outcome State Fault Refusal → State
  | .next t => t
  | .fault _ => State.reset
  | .refused _ => State.reset

/-- `n` answers Ok. -/
def oks (n : Nat) : List (BitVec 2) := List.replicate n 0

/-- Just after reset, with answers to come. -/
def fresh (answers : List (BitVec 2)) : State := { State.reset with answers := answers }

/-- `Configured / 27 / bl / 0`. -/
def ready (bl : Bool) (answers : List (BitVec 2)) : State :=
  { State.reset with phase := .configured, addr := 0x27, bl := bl, answers := answers }

/-- The display as a complete INIT after power-on leaves it (program P1). -/
def initedLcd : Display :=
  { Display.initial with
    pIf := .fourBit, cycled := false, half := some .expectHigh, pBusy := some false, blanked := true, pBl := some true, pUndef := some false,
    lastWord := some 0x68, ponWaited := true, functionSet := some 0x28, displayCtrl := some 0x0C, entryMode := some 0x06 }

/-! ## Well-formedness (each check refuses an ill-formed term) -/

theorem test_wf_reserved_op : Instr.wellFormed (.reserved 0x070000) = true := by decide
theorem test_wf_reserved_field : Instr.wellFormed (.reserved 0x012701) = true := by decide
theorem test_wf_refuses_defined_request : Instr.wellFormed (.reserved 0x012700) = false := by decide
theorem test_wf_refuses_cursor_word : Instr.wellFormed (.reserved 0x031000) = false := by decide

/-! ## Decoding: words written out from the table's encodings -/

theorem test_decode_init : decodeRequest 0b000000010010011100000000 = .init 0x27 := by decide
theorem test_decode_clear : decodeRequest 0b000000100000000000000000 = .clear := by decide
theorem test_decode_setCursor : decodeRequest 0b000000110000111100000001 = .setCursor 15 1 := by decide
theorem test_decode_putc : decodeRequest 0b000001000101011100000000 = .putc 0x57 := by decide
theorem test_decode_backlightOn : decodeRequest 0b000001010000000000000000 = .backlightOn := by decide
theorem test_decode_backlightOff : decodeRequest 0b000001100000000000000000 = .backlightOff := by decide
theorem test_decode_reserved : decodeRequest 0b000000000000000000000000 = .reserved 0 := by decide

/-- V1i to V1n. -/
theorem test_decode_reserved_space :
    [0x070000, 0xFFFFFF, 0x012701, 0x020100, 0x020001, 0x044101, 0x050001, 0x060100].map decodeRequest =
      ([0x070000, 0xFFFFFF, 0x012701, 0x020100, 0x020001, 0x044101, 0x050001, 0x060100] : List (BitVec 24)).map .reserved ∧
    decodeRequest 0x031000 = .setCursor 16 0 := by decide

theorem test_decode_writeWord : (decode (.byte .ww8 0b01011101)).toOption = some (.writeWord 0b0101 true true true) := by decide
theorem test_decode_writeWord_fields : (decode (.byte .ww8 0b01010001)).toOption = some (.writeWord 0b0101 false false true) := by
  decide
theorem test_decode_nibFs8 : (decode (.byte .lcdNib4 0b00110000)).toOption = some .nibFs8 := by decide
theorem test_decode_nibFs4 : (decode (.byte .lcdNib4 0b00100000)).toOption = some .nibFs4 := by decide
theorem test_decode_cmdFunctionSet : (decode (.byte .lcdCmd8 0b00101000)).toOption = some .cmdFunctionSet := by decide
theorem test_decode_cmdDisplayCtrl : (decode (.byte .lcdCmd8 0b00001100)).toOption = some .cmdDisplayCtrl := by decide
theorem test_decode_cmdClear : (decode (.byte .lcdCmd8 0b00000001)).toOption = some .cmdClear := by decide
theorem test_decode_cmdEntryMode : (decode (.byte .lcdCmd8 0b00000110)).toOption = some .cmdEntryMode := by decide
theorem test_decode_cmdSetDdram : (decode (.byte .lcdCmd8 0b11000101)).toOption = some (.cmdSetDdram 0x45) := by decide
theorem test_decode_data : (decode (.byte .lcdData8 0b01000001)).toOption = some (.data 0x41) := by decide
theorem test_decode_blWord : (decode (.byte .blWord8 0b00001000)).toOption = some (.blWord true) := by decide

/-- No row: bit 1 set, nibble 4, command `0x02` (return home, R127), a backlight word with another bit. -/
theorem test_decode_rejects :
    [(EmitFormat.ww8, 0x02#8), (.lcdNib4, 0x40), (.lcdCmd8, 0x02), (.blWord8, 0x09)].map
      (fun p => (decode (.byte p.1 p.2)).toOption) = [none, none, none, none] := by decide

/-- V1a, V1d encoded; PRINT and TEARDOWN expand (R106, R115). -/
theorem test_encode_requests :
    encode (.init 0x27) = [.req 0x012700] ∧ encode (.setCursor 15 1) = [.req 0x030F01] ∧
    encode (.print [0x57] 0 1) = [.req 0x030001, .req 0x045700] ∧ encode .teardown = [.req 0x020000, .req 0x060000] := by decide

theorem test_table_words :
    decodeTableWord 24 0x045700 = some (.putc 0x57) ∧ decodeTableWord 8 0x28 = some .cmdFunctionSet ∧
    decodeTableWord 8 0x30 = some .nibFs8 ∧ decodeTableWord 8 0x80 = some (.cmdSetDdram 0) := by decide

/-! ## Operands -/

/-- V2. -/
theorem test_ctl : ctl .cmd false = 0x00 ∧ ctl .cmd true = 0x08 ∧ ctl .data false = 0x01 ∧ ctl .data true = 0x09 := by decide

/-- E3. -/
theorem test_halves : hi 0xA5 = 0xA0 ∧ lo 0xA5 = 0x50 ∧ hi 0x0F = 0x00 ∧ lo 0x0F = 0xF0 := by decide

/-- V5a, V5b, V5e: the command bytes. -/
theorem test_cursorCommand : cursorCommand 0 0 = 0x80 ∧ cursorCommand 0 1 = 0xC0 ∧ cursorCommand 15 1 = 0xCF := by decide

/-! ## INIT -/

/-- P1: the 63 events; the hold before NIB_FS4 takes in `T_FS3` (log 35). -/
theorem test_init_trace :
    (nextOf (exec (.init 0x27) (fresh (oks 36)))).out =
      (let n := fun (x : Byte) => [Out.w 0x27 x .ok, .w 0x27 (x + 4) .ok, .d .tPw, .w 0x27 x .ok, .d .tPw]
       n 0x38 ++ [.d .tFs1] ++ n 0x38 ++ [.d .tFs2] ++
         [.w 0x27 0x38 .ok, .w 0x27 0x3C .ok, .d .tPw, .w 0x27 0x38 .ok, .d .tPwFs3] ++ n 0x28 ++ n 0x28 ++ n 0x88 ++ n 0x08 ++ n 0xC8 ++ n 0x08 ++
         n 0x18 ++ [.d .tClr] ++ n 0x08 ++ n 0x68 ++ [.resp .ok]) := by decide

/-- P1: end state. -/
theorem test_init_stat : (nextOf (exec (.init 0x27) (fresh (oks 36)))).stat = 0b0011100100111 := by decide

/-- P1: the observer, with `T_PON` waited. -/
theorem test_init_display :
    (nextOf (exec (.init 0x27) ((fresh (oks 36)).emit (.hostWait .tPon)))).lcd = initedLcd := by decide +kernel

/-- A display left undefined and then power-cycled, `T_PON` waited, to which a configured block has sent SET_CURSOR 3 0: the nibbles
8 and 3, a `T_FS1` after the 3. -/
def disturbedLcd : Display :=
  { Display.initial with
    pUndef := some true, ponWaited := true
    recent := [{ rs := false, nibble := 0x3, settled1 := true }, { rs := false, nibble := 0x8 }] }

/-- R131, R136: a nibble 3 latched and settled before INIT hides nothing of the handshake. -/
theorem test_init_after_other_latches :
    let t := nextOf (exec (.init 0x27) { fresh (oks 36) with lcd := disturbedLcd, panel := disturbedLcd })
    t.lcd.pIf = .fourBit ∧ t.lcd.pUndef = some false ∧ t.panel.pIf = .fourBit ∧ t.panel.pUndef = some false := by decide +kernel

/-- R131: a latch inside the handshake breaks it; so does a missing settle delay. -/
theorem test_handshake_is_whole :
    let fs8 : Latched := { rs := false, nibble := 0x3, settled1 := true, settled2 := true }
    stage1Seen [fs8, fs8, fs8] = true ∧ stage1Seen [fs8, { fs8 with nibble := 0x8 }, fs8] = false ∧
      stage1Seen [fs8, { fs8 with settled2 := false }, fs8] = false ∧ stage1Seen [fs8, fs8, { fs8 with settled1 := false }] = false ∧
      stage1Seen [fs8, fs8] = false := by decide

/-- V9c: the 14th write fails in `FourBitModeLocked`. -/
theorem test_init_abort :
    let t := nextOf (exec (.init 0x27) (fresh (oks 13 ++ [2])))
    t.stat = 0b0010000100111 ∧ t.result = some .ioFailure ∧ t.out.drop 22 = [.w 0x27 0x28 .ok, .w 0x27 0x2C .ioFailure, .resp .ioFailure]
      ∧ t.lcd.pUndef = some true := by decide

/-! ## CLEAR, SET_CURSOR, PUTC -/

/-- V7a. -/
theorem test_clear_trace :
    (nextOf (exec .clear (ready true (oks 6)))).out =
      [.w 0x27 0x08 .ok, .w 0x27 0x0C .ok, .d .tPw, .w 0x27 0x08 .ok, .d .tPw, .w 0x27 0x18 .ok, .w 0x27 0x1C .ok, .d .tPw,
       .w 0x27 0x18 .ok, .d .tPw, .d .tClr, .resp .ok] := by decide

/-- V7c: the wait is left out, the phase stays. -/
theorem test_clear_abort :
    let t := nextOf (exec .clear (ready true (oks 5 ++ [3])))
    t.out.drop 8 = [.w 0x27 0x18 .ioFailure, .resp .ioFailure] ∧ t.phase = .configured := by decide

/-- V5f, V5h. -/
theorem test_setCursor_words :
    busWords (nextOf (exec (.setCursor 15 1) (ready false (oks 6)))).out = [0xC0, 0xC4, 0xC0, 0xF0, 0xF4, 0xF0] := by decide
theorem test_setCursor_out_of_range :
    let t := nextOf (exec (.setCursor 16 0) (ready true (oks 6)))
    t.out = [.resp .contractViolation] ∧ t.faultCv = true ∧ t.answers = oks 6 := by decide

/-- V6a; P4c: an abort inside a byte. -/
theorem test_putc_words :
    busWords (nextOf (exec (.putc 0x57) (ready true (oks 6)))).out = [0x59, 0x5D, 0x59, 0x79, 0x7D, 0x79] := by decide
theorem test_putc_abort :
    (nextOf (exec (.putc 0x41) (ready true [0, 0, 2]))).out =
      [.w 0x27 0x49 .ok, .w 0x27 0x4D .ok, .d .tPw, .w 0x27 0x49 .ioFailure, .resp .ioFailure] := by decide

/-- R134: the code is stored where the counter points, which moves on; at the end of a row it is Unknown (U6). -/
theorem test_putc_display :
    let s := { ready true (oks 6) with lcd := { initedLcd with ac := some 0x4F } }
    let t := nextOf (exec (.putc 0x41) s)
    t.lcd.shown 15 1 = .code 0x41 ∧ t.lcd.shown 14 1 = .blank ∧ t.lcd.pAc = none := by decide

/-! ## Backlight -/

/-- V8a, V8d, V8e. -/
theorem test_backlightOff :
    let t := nextOf (exec .backlightOff (ready true [0]))
    t.out = [.w 0x27 0x00 .ok, .resp .ok] ∧ t.bl = false := by decide
theorem test_backlightOff_failed :
    let t := nextOf (exec .backlightOff (ready true [1]))
    t.out = [.w 0x27 0x00 .unreachable, .resp .unreachable] ∧ t.bl = false := by decide
theorem test_backlightOn : busWords (nextOf (exec .backlightOn (ready true [0]))).out = [0x08] := by decide
theorem test_backlight_before_init :
    let t := nextOf (exec .backlightOff (fresh [0]))
    t.out = [.resp .contractViolation] ∧ t.bl = true := by decide

/-! ## Reserved requests, PRINT, TEARDOWN -/

/-- P4e. -/
theorem test_reserved : (nextOf (exec (.reserved 0x070000) (fresh [0]))).stat = 0b0110000000000 := by decide

/-- P2's first character; R107: stops at the first failure. -/
theorem test_print :
    busWords (nextOf (exec (.print [0x57] 0 1) (ready true (oks 12)))).out =
      [0xC8, 0xCC, 0xC8, 0x08, 0x0C, 0x08, 0x59, 0x5D, 0x59, 0x79, 0x7D, 0x79] := by decide
theorem test_print_stops :
    let t := nextOf (exec (.print [0x57, 0x65] 0 1) (ready true (oks 6 ++ [1, 0])))
    t.result = some .unreachable ∧ t.answers = [0] ∧ t.todo = [] := by decide

/-- P6. -/
theorem test_teardown :
    let t := nextOf (exec .teardown (ready true (oks 7)))
    busWords t.out = [0x08, 0x0C, 0x08, 0x18, 0x1C, 0x18, 0x00] ∧ t.stat = 0b0001100100111 := by decide

/-! ## Emitted values -/

/-- V3a, V3b. -/
theorem test_nibFs8 :
    (nextOf (exec .nibFs8 (ready true (oks 3)))).out =
      [.w 0x27 0x38 .ok, .w 0x27 0x3C .ok, .d .tPw, .w 0x27 0x38 .ok, .d .tPw] := by decide
theorem test_nibFs4 : busWords (nextOf (exec .nibFs4 (ready true (oks 3)))).out = [0x28, 0x2C, 0x28] := by decide

/-- V4a to V4d. -/
theorem test_commands :
    [Instr.cmdFunctionSet, .cmdDisplayCtrl, .cmdClear, .cmdEntryMode].map
      (fun i => busWords (nextOf (exec i (ready true (oks 6)))).out) =
      [[0x28, 0x2C, 0x28, 0x88, 0x8C, 0x88], [0x08, 0x0C, 0x08, 0xC8, 0xCC, 0xC8], [0x08, 0x0C, 0x08, 0x18, 0x1C, 0x18],
       [0x08, 0x0C, 0x08, 0x68, 0x6C, 0x68]] := by decide

/-- V5g's byte `0x83`; V4f; the plain words of V2b and R55. -/
theorem test_cmdSetDdram :
    busWords (nextOf (exec (.cmdSetDdram 0x03) (ready false (oks 6)))).out = [0x80, 0x84, 0x80, 0x30, 0x34, 0x30] := by decide
theorem test_data : busWords (nextOf (exec (.data 0x41) (ready false (oks 6)))).out = [0x41, 0x45, 0x41, 0x11, 0x15, 0x11] := by
  decide
theorem test_blWord : busWords (nextOf (exec (.blWord true) (ready true (oks 1)))).out = [0x08] := by decide
theorem test_writeWord : (nextOf (exec (.writeWord 0x3 true true false) (ready true (oks 1)))).out = [.w 0x27 0x3C .ok] := by
  decide

/-! ## Steps: waiting, going on, reset -/

/-- U8: without an answer the block stays busy at its first write. -/
theorem test_step_waits :
    let t := nextOf (step (State.reset.withFetchWord 24 0x012700))
    t.busy = true ∧ t.tx = some ⟨0x27, 0x38⟩ ∧ t.out = [] ∧ step t = .next t := by
  refine ⟨by decide, by decide, by decide, rfl⟩

/-- The phase of INIT is seen while it waits (R24): after 12 answers it is `FourBitModeLocked`. -/
theorem test_step_shows_phase :
    (nextOf (step ((fresh (oks 12)).withFetchWord 24 0x012700))).stat = 0b1011000100111 := by decide

/-- R165: reset after 3 events of CLEAR. -/
theorem test_cut :
    let t := nextOf (step { ready false (oks 6) with inputs := [.cut 0x020000 3] })
    t.out = [.w 0x27 0x00 .ok, .w 0x27 0x04 .ok, .d .tPw, .reset true] ∧ t.stat = 0b0010000000000 ∧
      t.lcd.pUndef = some true := by decide

/-! ## The peripheral over resets and power cycles -/

/-- R166: an idle reset keeps the peripheral; R128: the observer then knows nothing. -/
theorem test_idle_reset :
    let t := nextOf (step { ready true [] with lcd := initedLcd, panel := initedLcd, inputs := [.reset] })
    t.panel = initedLcd ∧ t.lcd.pIf = .unknown ∧ t.lcd.pBl = none ∧ t.lcd.pUndef = none := by decide

/-- R128, R136: after a power cycle a false `p_undef` is Unknown and a true one stays. -/
theorem test_power_cycle :
    initedLcd.powerOn = Display.initial ∧ (Display.initial.undefine.powerOn).pUndef = some true ∧
      (Display.initial.undefine.powerOn).pIf = .ambiguous := by decide

/-! ## Latching (V10) -/

theorem test_latches :
    latches [0x59, 0x5D, 0x59, 0x79, 0x7D, 0x79] = [(true, 5), (true, 7)] ∧ latches [0x38, 0x08] = [] := by decide

/-! ## Witnesses: the hypotheses of the statements can be met -/

/-- An idle block before INIT whose display has just been switched on, `T_PON` waited. -/
def switchedOn (answers : List (BitVec 2)) : State := (fresh answers).emit (.hostWait .tPon)

/-- `Configured` with the display as INIT leaves it. -/
def running (answers : List (BitVec 2)) : State := { ready true answers with lcd := initedLcd, panel := initedLcd }

/-- CLEAR waiting at its third write. -/
def waiting : State := nextOf (exec .clear (ready true (oks 2)))

/-- A display of which nothing is known after a bus error. -/
def undefinedLcd : Display := Display.initial.undefine

theorem witness_DecodeOfEncode :
    Instr.wellFormed (.reserved 0x070000) = true ∧ Instr.wellFormed (.reserved 0x020001) = true ∧
    Instr.wellFormed (.init 0xFF) = true ∧ Instr.wellFormed (.print [0x00, 0xFF] 15 1) = true := by decide

theorem witness_cursor_in_range :
    (0x00#8).toNat ≤ 15 ∧ (0x00#8).toNat ≤ 1 ∧ (0x0F#8).toNat ≤ 15 ∧ (0x01#8).toNat ≤ 1 := by decide

theorem witness_cursor_out_of_range :
    16 ≤ (0x10#8).toNat ∧ 2 ≤ (0x02#8).toNat ∧ 16 ≤ (0xFF#8).toNat ∧ 2 ≤ (0xFF#8).toNat := by decide

theorem witness_InitRunsTheHandshake :
    let s := fresh (oks 36 ++ [1])
    s.busy = false ∧ s.phase = .uninitialized ∧ s.answers = List.replicate 36 0 ++ [1] := by decide

theorem witness_ClearSendsTheCommandAndWaits :
    let s := ready false (oks 6)
    s.busy = false ∧ s.phase = .configured ∧ s.answers = List.replicate 6 0 ++ [] := by decide

theorem witness_SetCursorSendsTheAddress :
    let s := ready true (oks 6)
    s.busy = false ∧ s.phase = .configured ∧ (15#8).toNat ≤ 15 ∧ (1#8).toNat ≤ 1 ∧ s.answers = List.replicate 6 0 ++ [] := by decide

theorem witness_PutcSendsTheCode :
    let s := ready true (oks 6)
    s.busy = false ∧ s.phase = .configured ∧ Config.glyphOk 0xFF = true ∧ Config.glyphOk 0x00 = true ∧
      s.answers = List.replicate 6 0 ++ [] := by decide

theorem witness_BacklightOperationsSetTheFlag :
    let s := ready true [0]
    s.busy = false ∧ s.phase = .configured ∧ s.answers = [0] ∧ TxResult.ofCode 0 = .ok := by decide

theorem witness_PrintWritesEveryCharacter :
    let s := ready true (oks 18)
    s.busy = false ∧ s.phase = .configured ∧ (15#8).toNat ≤ 15 ∧ (1#8).toNat ≤ 1 ∧
      ([0x57, 0x65] : List Byte).all Config.glyphOk = true ∧
      s.answers = List.replicate (6 + 6 * ([0x57, 0x65] : List Byte).length) 0 ++ [] := by decide

/-- `n = 0` is legal (R108). -/
theorem witness_print_empty :
    let s := ready true (oks 6)
    s.busy = false ∧ s.phase = .configured ∧ ([] : List Byte).all Config.glyphOk = true ∧
      s.answers = List.replicate (6 + 6 * ([] : List Byte).length) 0 ++ [] := by decide

theorem witness_TeardownClearsAndDarkens :
    let s := ready true (oks 7)
    s.busy = false ∧ s.phase = .configured ∧ s.answers = List.replicate 7 0 ++ [] := by decide

theorem witness_HandshakeNibblesAreSent :
    let s := ready true (oks 3)
    s.busy = false ∧ s.answers = List.replicate 3 0 ++ [] := by decide

theorem witness_byte_is_sent :
    let s := fresh (oks 6)
    s.busy = false ∧ s.answers = List.replicate 6 0 ++ [] := by decide

theorem witness_PlainWordsAreSent :
    let s := ready false [0, 1]
    s.busy = false ∧ s.answers = 0 :: [1] ∧ TxResult.ofCode 0 = .ok := by decide

theorem witness_RequestsDecodeByTheProcedure :
    (1 : Nat) = ((0x012700 : BitVec 24).extractLsb' 16 8).toNat ∧ (0x27 : Byte) = (0x012700 : BitVec 24).extractLsb' 8 8 ∧
    (0 : Byte) = (0x012700 : BitVec 24).extractLsb' 0 8 ∧ (6 : Nat) = ((0x06FFFF : BitVec 24).extractLsb' 16 8).toNat ∧
    (7 : Nat) = ((0x07FFFF : BitVec 24).extractLsb' 16 8).toNat ∧
    ([0x000000, 0x07FFFF, 0x012701] : List (BitVec 24)).map
      (fun w => [patInit, patClear, patSetCursor, patPutc, patBacklightOn, patBacklightOff].countP (·.selects w)) = [0, 0, 0] := by
  decide

/-- The clauses of a violation: the phases other than `Configured`. -/
theorem witness_not_configured :
    (fresh []).busy = false ∧ (fresh []).phase ≠ .configured ∧ { fresh [] with phase := .fourBitModeLocked }.phase ≠ .configured := by
  decide

theorem witness_EmittedValuesLeaveTheRegisters :
    Instr.isRequest (.data 0xFF) = false ∧ Instr.isPseudo (.data 0xFF) = false ∧ (ready true [1]).busy = false := by decide

theorem witness_RequestsNotPermittedViolateTheContract :
    (fresh []).busy = false ∧ permitted (fresh []) .clear = false ∧ permitted (fresh []) .backlightOff = false ∧
    permitted (ready true []) (.init 0x27) = false ∧ permitted (ready true []) (.setCursor 16 0) = false ∧
    permitted (ready true []) (.setCursor 0 2) = false ∧ permitted (ready true []) (.reserved 0) = false ∧
    permitted { ready true [] with phase := .functionReset } (.init 0) = false := by decide

/-- Out of range in each operand, and in range before INIT. -/
theorem witness_PrintRefusedAtItsFirstRequestSendsNothing :
    (ready true [0]).busy = false ∧ ([0x41] : List Byte).all Config.glyphOk = true ∧ 16 ≤ (0x10#8).toNat ∧ 2 ≤ (0x02#8).toNat ∧
    (fresh [0]).busy = false ∧ (fresh [0]).phase ≠ .configured ∧ (0x0F#8).toNat ≤ 15 ∧ (0x01#8).toNat ≤ 1 := by decide

theorem witness_reserved_words :
    (fresh []).busy = false ∧ reservedOp 0x000000 = true ∧ reservedOp 0x07FFFF = true ∧ reservedField 0x0127FF = true ∧
    reservedField 0x020100 = true := by decide

theorem witness_ViolationFlagChangesNothing :
    let s := ready true (oks 6)
    exec .clear s = .next (nextOf (exec .clear s)) := rfl

theorem witness_ViolationFlagIsSticky :
    let s := { ready true [] with faultCv := true }
    s.faultCv = true ∧ s.busy = false ∧ (nextOf (exec .clear s)).faultCv = true ∧
      (nextOf (exec .clear (ready true (oks 6)))).faultCv = false ∧ permitted s .clear = true := by decide

/-- The first and the last write of INIT, and the one write of a backlight operation. -/
theorem witness_FirstBusErrorEndsTheOperation :
    let s := fresh [1]
    let s' := fresh (oks 35 ++ [2])
    let s'' := ready true [3]
    permitted s (.init 0) = true ∧ 0 < writeCount (.init 0) ∧ TxResult.ofCode 1 ≠ .ok ∧ s.answers = List.replicate 0 0 ++ 1 :: [] ∧
    permitted s' (.init 0) = true ∧ 35 < writeCount (.init 0) ∧ TxResult.ofCode 2 ≠ .ok ∧ s'.answers = List.replicate 35 0 ++ 2 :: [] ∧
    permitted s'' .backlightOff = true ∧ 0 < writeCount .backlightOff ∧ TxResult.ofCode 3 ≠ .ok ∧ s''.answers = 3 :: [] ∧
    s.busy = false ∧ s'.busy = false ∧ s''.busy = false := by decide

theorem witness_UnansweredWriteLeavesTheBlockBusy :
    let s := fresh []
    let s' := fresh (oks 35)
    permitted s (.init 0) = true ∧ s.answers = List.replicate 0 0 ∧ permitted s' (.init 0) = true ∧
    35 < writeCount (.init 0) ∧ s'.answers = List.replicate 35 0 ∧ s.busy = false ∧ s'.busy = false := by decide

theorem witness_UnansweredBlockStaysAsItIs :
    let s := ready true (oks 2)
    s.busy = false ∧ s.inputs = [] ∧ exec .clear s = .next waiting ∧ waiting.busy = true := by
  refine ⟨by decide, by decide, rfl, by decide⟩

theorem witness_AnswersMayComeLater :
    let s := ready true []
    s.busy = false ∧ s.inputs = [] ∧ s.todo = [] ∧ exec .clear { s with answers := oks 2 } = .next waiting ∧
      waiting.busy = true := by
  refine ⟨by decide, by decide, by decide, rfl, by decide⟩

theorem witness_BusyBlockTakesNothing :
    let s := { waiting with inputs := [.word (.req 0x050000)] }
    s.busy = true ∧ s.inputs = .word (.req 0x050000) :: [] := by decide

theorem witness_EveryRequestGetsOneResponse :
    Instr.isRequest (.init 1) = true ∧ (fresh (oks 36)).busy = false ∧ 36 ≤ (fresh (oks 36)).answers.length := by decide

theorem witness_PrintReportsOkOnlyWhenComplete :
    let s := ready true (oks 12)
    let t := nextOf (exec (.print [0x41] 0 0) s)
    s.busy = false ∧ exec (.print [0x41] 0 0) s = .next t ∧ t.busy = false ∧ t.result = some .ok := by
  refine ⟨by decide, rfl, by decide, by decide⟩

/-- The first and the last write of a PRINT of one character. -/
theorem witness_PrintStopsAtTheFirstError :
    let s := ready true [1]
    let s' := ready true (oks 11 ++ [2, 0])
    s.busy = false ∧ s.phase = .configured ∧ ([0x41] : List Byte).all Config.glyphOk = true ∧
    0 < 6 + 6 * ([0x41] : List Byte).length ∧ s.answers = List.replicate 0 0 ++ 1 :: [] ∧
    11 < 6 + 6 * ([0x41] : List Byte).length ∧ s'.answers = List.replicate 11 0 ++ 2 :: [0] ∧ s'.busy = false ∧
    TxResult.ofCode 1 ≠ .ok ∧ TxResult.ofCode 2 ≠ .ok := by decide

/-- Before INIT, at the first and the last write of CLEAR, and at the write of BACKLIGHT_OFF. -/
theorem witness_TeardownStopsAtTheFirstFailure :
    let a := fresh []
    let b := ready true [3]
    let c := ready true (oks 5 ++ [1, 0])
    let d := ready true (oks 6 ++ [2, 0])
    a.busy = false ∧ a.phase ≠ .configured ∧
    b.busy = false ∧ b.phase = .configured ∧ 0 < 6 ∧ TxResult.ofCode 3 ≠ .ok ∧ b.answers = List.replicate 0 0 ++ 3 :: [] ∧
    c.busy = false ∧ c.phase = .configured ∧ 5 < 6 ∧ TxResult.ofCode 1 ≠ .ok ∧ c.answers = List.replicate 5 0 ++ 1 :: [0] ∧
    d.busy = false ∧ d.phase = .configured ∧ TxResult.ofCode 2 ≠ .ok ∧ d.answers = List.replicate 6 0 ++ 2 :: [0] := by decide

theorem witness_requests_on_an_idle_block :
    Instr.isRequest (.reserved 0xFFFFFF) = true ∧ Instr.isRequest (.init 0) = true ∧ (fresh [2]).busy = false ∧
    (ready true []).phase = .configured ∧ (ready true []).busy = false := by decide

theorem witness_permitted_request :
    let s := ready true (oks 6)
    let s' := fresh (oks 36)
    s.busy = false ∧ permitted s (.putc 0xFF) = true ∧ s.answers = List.replicate (writeCount (.putc 0xFF)) 0 ++ [] ∧
    s'.busy = false ∧ permitted s' (.init 0) = true ∧ s'.answers = List.replicate (writeCount (.init 0)) 0 ++ [] := by decide

theorem witness_SecondClearWaitsAgain :
    let s := ready true (oks 12)
    s.busy = false ∧ s.phase = .configured ∧ s.answers = List.replicate 12 0 ++ [] := by decide

theorem witness_ResetInputRestoresTheRegisters :
    let s := { ready false [] with inputs := [.reset] }
    let s' := { waiting with inputs := [.reset] }
    s.inputs = .reset :: [] ∧ s.busy = false ∧ s.tx = none ∧ s'.inputs = .reset :: [] ∧ s'.busy = true ∧
      s'.tx = some ⟨0x27, 0x08⟩ := by decide

/-- Cut before the first and before the last event of CLEAR. -/
theorem witness_ResetCutsTheOperation :
    let s := { ready true (oks 6) with inputs := [.cut 0x020000 0] }
    let s' := { ready true (oks 6) with inputs := [.cut 0x020000 10] }
    s.busy = false ∧ s.tx = none ∧ permitted s .clear = true ∧ s.answers = List.replicate (writeCount .clear) 0 ++ [] ∧
    0 < (requestTrace s.addr s.bl .clear).length ∧ s.inputs = .cut (requestWord .clear) 0 :: [] ∧
    s'.busy = false ∧ s'.tx = none ∧ permitted s' .clear = true ∧ s'.answers = List.replicate (writeCount .clear) 0 ++ [] ∧
    10 < (requestTrace s'.addr s'.bl .clear).length ∧ s'.inputs = .cut (requestWord .clear) 10 :: [] := by decide

theorem witness_StepRunsTheDecodedInstruction :
    let a := { fresh [] with inputs := [.word (.req 0x012700)] }
    let b := { fresh [] with inputs := [.print [0x41] 0 0] }
    let c := { fresh [] with inputs := [.teardown] }
    a.busy = false ∧ a.inputs = .word (.req 0x012700) :: [] ∧ (decode (.req 0x012700)).toOption = some (.init 0x27) ∧
    b.busy = false ∧ b.inputs = .print [0x41] 0 0 :: [] ∧ c.busy = false ∧ c.inputs = .teardown :: [] ∧
    (fresh []).busy = false ∧ (fresh []).inputs = [] := by decide

theorem witness_PlacedTableWordRunsNext :
    decodeTableWord 24 0xFFFFFF = some (.reserved 0xFFFFFF) ∧ decodeTableWord 8 0xFF = some (.cmdSetDdram 0x7F) := by decide

theorem witness_OnlyBytesOfNoRowAreRefused :
    let s := { fresh [] with inputs := [.word (.byte .lcdCmd8 0x02)] }
    let s' := { fresh [] with inputs := [.word (.req 0xFFFFFF)] }
    s.busy = false ∧ s.inputs = .word (.byte .lcdCmd8 0x02) :: [] ∧ decode (.byte .lcdCmd8 0x02) = .error (.unknownCommand 0x02) ∧
    decode (.byte .ww8 0x02) = .error (.notAWriteWord 0x02) ∧ decode (.byte .lcdNib4 0x40) = .error (.unknownNibble 0x40) ∧
    decode (.byte .blWord8 0x09) = .error (.notABacklightWord 0x09) ∧ s'.busy = false ∧
    s'.inputs = .word (.req 0xFFFFFF) :: [] ∧ decode (.byte .lcdData8 0x02) = .ok (.data 0x02) := by
  refine ⟨by decide, by decide, rfl, rfl, rfl, rfl, by decide, by decide, rfl⟩

theorem witness_OnlyResetClearsTheViolationFlag :
    let s := { ready true [0] with faultCv := true, inputs := [.word (.req 0x050000)] }
    s.faultCv = true ∧ step s = .next (nextOf (step s)) ∧ (∀ rest, s.inputs ≠ .reset :: rest) ∧
      (∀ w k rest, s.inputs ≠ .cut w k :: rest) := by
  refine ⟨by decide, rfl, ?_, ?_⟩ <;> intros <;> simp

/-- An idle state, and one that waits at the third write of CLEAR. -/
theorem witness_RegisterShapeIsKept :
    BlockInv (ready true []) ∧ BlockInv waiting ∧ step (ready true []) = .next (ready true []) ∧
      step waiting = .next (nextOf (step waiting)) := by
  refine ⟨⟨fun _ => ⟨rfl, rfl, rfl, Or.inr rfl⟩, fun h => absurd h (by decide)⟩, ⟨fun h => absurd h (by decide), fun _ => ?_⟩, rfl,
    rfl⟩
  exact ⟨.clear, 3, .nibble 0x00 .cmd false, none, by decide, by decide, by decide, fun _ => by decide, fun _ h => by simp at h,
    fun _ => ⟨fun _ => by decide, by decide⟩⟩

theorem witness_ObserverFollowsTheRecord :
    State.reset.lcd = Display.initial.observeAll State.reset.out ∧ step State.reset = .next State.reset := ⟨rfl, rfl⟩

theorem witness_BlockReadsNothingOfThePeripheral :
    let s := { running (oks 6) with inputs := [.word (.req 0x020000)] }
    step s = .next (nextOf (step s)) := rfl

theorem witness_ControllerAssemblesWhatWasRequested :
    let s := fresh (oks 49)
    let ops : List Instr := [.setCursor 15 1, .putc 0xFF, .backlightOff]
    s.busy = false ∧ s.phase = .uninitialized ∧ (∀ i ∈ ops, permitted { s with phase := .configured } i = true) ∧
      s.answers = List.replicate (36 + (ops.map writeCount).sum) 0 ++ [] := by decide

theorem witness_InitBringsAFreshDisplayToFourBitMode :
    let s := switchedOn (oks 36)
    s.busy = false ∧ s.phase = .uninitialized ∧ s.answers = List.replicate 36 0 ++ [] ∧ AwaitsInit s.lcd ∧ AwaitsInit s.panel ∧
      AwaitsInit s.lcd.blockReset ∧ AwaitsInit disturbedLcd ∧ disturbedLcd.pUndef = some true :=
  ⟨rfl, rfl, rfl, ⟨by decide, rfl, rfl, rfl⟩, ⟨by decide, rfl, rfl, rfl⟩, ⟨by decide, rfl, rfl, rfl⟩, ⟨by decide, rfl, rfl, rfl⟩, rfl⟩

/-- A configured block whose display has been left undefined, and the host's recovery (R174). -/
def recovering : State :=
  { ready false (oks 36) with
    lcd := undefinedLcd, panel := undefinedLcd
    inputs := [.powerCycle, .reset, .hostWait .tPon, .word (.req 0x012700)] }

theorem witness_RecoveryTakesAPowerCycleAndInit :
    recovering.busy = false ∧ recovering.tx = none ∧ recovering.answers = List.replicate 36 0 ++ [] ∧
      recovering.inputs = .powerCycle :: .reset :: .hostWait .tPon :: .word (.req (requestWord (.init 0x27))) :: [] ∧
      recovering.lcd.pUndef = some true ∧ recovering.panel.pUndef = some true ∧ 0 < 36 ∧ 35 < 36 := by decide

theorem witness_ResetKeepsThePeripheral :
    let s := { running [] with inputs := [.reset] }
    s.busy = false ∧ s.tx = none ∧ s.inputs = .reset :: [] := by decide

/-- The display after INIT is tracked; the ends of both rows. -/
theorem witness_CharacterLandsAtTheCursor :
    let s := running (oks 12)
    s.busy = false ∧ s.phase = .configured ∧ (14#8).toNat < 15 ∧ (15#8).toNat = 15 ∧ (1#8).toNat ≤ 1 ∧
      Config.glyphOk 0x00 = true ∧ Tracked s.lcd ∧ s.answers = List.replicate 12 0 ++ [] :=
  ⟨by decide, by decide, by decide, by decide, by decide, by decide, ⟨rfl, rfl, rfl, rfl, rfl⟩, rfl⟩

theorem witness_ClearBlanksTheDisplay :
    let s := running (oks 6)
    s.busy = false ∧ s.phase = .configured ∧ Tracked s.lcd ∧ s.answers = List.replicate 6 0 ++ [] :=
  ⟨by decide, by decide, ⟨rfl, rfl, rfl, rfl, rfl⟩, rfl⟩

theorem witness_BacklightOperationsLatchNothing :
    let s := running [0]
    s.busy = false ∧ s.phase = .configured ∧ s.lcd.pulse = .idle ∧ s.panel.pulse = .idle ∧ s.answers = 0 :: [] ∧ TxResult.ofCode 0 = .ok := by decide

theorem witness_BusErrorOrSecondWriterLeavesTheControllerUndefined :
    let s := running [1]
    let s' := running (oks 5 ++ [2])
    s.busy = false ∧ permitted s .clear = true ∧ 0 < writeCount .clear ∧ s.answers = List.replicate 0 0 ++ 1 :: [] ∧
    s'.busy = false ∧ permitted s' .clear = true ∧ 5 < writeCount .clear ∧ s'.answers = List.replicate 5 0 ++ 2 :: [] ∧
    TxResult.ofCode 1 ≠ .ok ∧ TxResult.ofCode 2 ≠ .ok := by decide

/-- A second writer while the block is idle and while it waits for an answer. -/
theorem witness_second_writer :
    let s := { running [] with inputs := [.foreignWrite 0x0C] }
    let s' := { waiting with inputs := [.foreignWrite 0x0C] }
    s.busy = false ∧ s.inputs = .foreignWrite 0x0C :: [] ∧ s'.busy = true ∧ s'.inputs = .foreignWrite 0x0C :: [] := by decide

theorem witness_OnlyAPowerCycleEndsTheUndefinedState :
    let s := { fresh (oks 36) with lcd := undefinedLcd, panel := undefinedLcd, inputs := [.word (.req 0x012700)] }
    step s = .next (nextOf (step s)) ∧ (∀ rest, s.inputs ≠ .powerCycle :: rest) ∧ Lost s.lcd ∧ Lost s.panel := by
  refine ⟨rfl, ?_, ⟨rfl, rfl, rfl⟩, ⟨rfl, rfl, rfl⟩⟩
  intros; simp

/-- R174 played: nothing is said before INIT has ended, and everything after it. -/
theorem test_recovery :
    let s₃ := nextOf (step (nextOf (step (nextOf (step recovering)))))
    let t := nextOf (step s₃)
    s₃.lcd.pUndef = some true ∧ t.lcd.pUndef = some false ∧ t.panel.pUndef = some false ∧ t.lcd.pIf = .fourBit ∧
      t.lcd.pHalf = some .expectHigh ∧ t.panel.shown 15 1 = .blank ∧
      (nextOf (exec (.init 0x27) { s₃ with inputs := [], answers := oks 20 })).lcd.pHalf = none ∧
      (nextOf (exec (.init 0x27) { s₃ with inputs := [], answers := oks 35 })).panel.pUndef = some true := by decide +kernel

theorem witness_DisplayMemoryStaysCanonical :
    let s := { running [] with lcd := { initedLcd with cells := [(0x00, 0x41), (0x4F, 0x42)] } }
    s.lcd.cells.wf = true ∧ s.panel.cells.wf = true ∧ step s = .next s := ⟨by decide, by decide, rfl⟩

theorem witness_CanonicalMemoriesThatReadAlikeAreEqual :
    Memory.wf [(0x00, 0x41), (0x7F, 0x42)] = true ∧ Memory.wf [] = true := by decide

/-- What the canonical form shuts out: an order that falls, a repeat, an address outside the space. -/
theorem test_memory_wf_refuses :
    Memory.wf [(1, 0), (0, 0)] = false ∧ Memory.wf [(1, 0), (1, 0)] = false ∧ Memory.wf [(128, 0)] = false := by decide

end Sys2Proof.Tests
end

/-! # What a row and a step do to the block

`serve` says once what an idle block does with a row, `StepBy` what a step can do; every statement about all instructions or
all steps is a case analysis over these two. -/

namespace Sys2Proof.Machine

open Sys2Proof.Spec

/-! ## An instruction -/

/-- What an idle block does with a row: the host expands a pseudo-instruction (R106, R115), a request is accepted and run, an
emitted value is run as it stands (log 6). -/
def serve (i : Instr) (s : State) : State :=
  if i.isPseudo then runTodo (expand i) s
  else if i.isRequest then (acceptRequest i s).resume
  else (s.begin i).resume

/-- Log 11: every text passes the glyph check. -/
theorem all_glyphOk (text : List Byte) : text.all Config.glyphOk = true := by
  simp [Config.glyphOk]

/-- `exec` is total: a busy block takes nothing (log 13), an idle one serves the row. -/
theorem exec_eq_serve (i : Instr) (s : State) : exec i s = .next (if s.busy then s else serve i s) := by
  cases i with
  | print text col row =>
    show execPrint text col row s = _
    rw [execPrint, all_glyphOk]
    rfl
  | _ => rfl

theorem exec_idle (i : Instr) (s : State) (hb : s.busy = false) : exec i s = .next (serve i s) := by
  simp [exec_eq_serve, hb]

theorem exec_busy (i : Instr) (s : State) (hb : s.busy = true) : exec i s = .next s := by
  simp [exec_eq_serve, hb]

theorem serve_pseudo {i : Instr} (h : i.isPseudo = true) (s : State) : serve i s = runTodo (expand i) s := by
  simp [serve, h]

theorem isPseudo_of_isRequest {i : Instr} (h : i.isRequest = true) : i.isPseudo = false := by
  cases i with
  | print text col row => cases h
  | teardown => cases h
  | _ => rfl

theorem isInit_eq_false {i : Instr} (h : ∀ a, i ≠ .init a) : i.isInit = false := by
  cases i with
  | init a => exact absurd rfl (h a)
  | _ => rfl

theorem exists_eq_init {i : Instr} (h : i.isInit = true) : ∃ a, i = .init a := by
  cases i with
  | init a => exact ⟨a, rfl⟩
  | _ => cases h

theorem serve_request {i : Instr} (h : i.isRequest = true) (s : State) : serve i s = (acceptRequest i s).resume := by
  simp [serve, isPseudo_of_isRequest h, h]

theorem serve_emitted {i : Instr} (hp : i.isPseudo = false) (hr : i.isRequest = false) (s : State) :
    serve i s = (s.begin i).resume := by
  simp [serve, hp, hr]

/-- The host expands into requests of the block (R106, R115). -/
theorem isRequest_of_mem_expand {i j : Instr} (hi : i.isPseudo = true) (hj : j ∈ expand i) : j.isRequest = true := by
  cases i with
  | print text col row =>
    rcases List.mem_cons.1 hj with rfl | hj
    · rfl
    · obtain ⟨c, -, rfl⟩ := List.mem_map.1 hj
      rfl
  | teardown =>
    rcases List.mem_cons.1 hj with rfl | hj
    · rfl
    · rw [List.mem_singleton.1 hj]
      rfl
  | _ => cases hi

/-! ## Acceptance -/

theorem isRequest_of_permitted {i : Instr} {s : State} (h : permitted s i = true) : i.isRequest = true := by
  cases i with
  | init _ | clear | setCursor _ _ | putc _ | backlightOn | backlightOff => rfl
  | _ => cases h

theorem State.acceptConfigured_ok {s : State} (hs : s.phase = .configured) (i : Instr) :
    s.acceptConfigured i true = s.accept i := by
  simp [State.acceptConfigured, hs]

theorem State.acceptConfigured_refused {s : State} {ok : Bool} (h : (decide (s.phase = .configured) && ok) = false)
    (i : Instr) : s.acceptConfigured i ok = (s.accept i).contractViolation := by
  cases ok <;> simp_all [State.acceptConfigured]

theorem State.acceptBacklight_ok {s : State} (hs : s.phase = .configured) (i : Instr) (on : Bool) :
    s.acceptBacklight i on = { s.accept i with bl := on } := by
  simp [State.acceptBacklight, hs]

theorem State.acceptBacklight_refused {s : State} (hs : s.phase ≠ .configured) (i : Instr) (on : Bool) :
    s.acceptBacklight i on = (s.accept i).contractViolation := by
  simp [State.acceptBacklight, hs]

theorem permitted_setCursor (col row : Byte) (s : State) :
    permitted s (.setCursor col row) = (decide (s.phase = .configured) && cursorInRange col row) := by
  rw [cursorInRange_eq, permitted, Bool.and_assoc]

/-- A permitted request writes its registers and is accepted (R86, R112, R158). -/
theorem acceptRequest_permitted {i : Instr} {s : State} (h : permitted s i = true) :
    acceptRequest i s = (setUp i s).accept i := by
  cases i with
  | init a => exact if_pos (of_decide_eq_true h)
  | clear => exact State.acceptConfigured_ok (of_decide_eq_true h) _
  | setCursor col row =>
    rw [permitted_setCursor, Bool.and_eq_true, decide_eq_true_eq] at h
    rw [acceptRequest, acceptSetCursor, h.2]
    exact State.acceptConfigured_ok h.1 _
  | putc code =>
    obtain ⟨hs, -⟩ := (Bool.and_eq_true _ _).mp h
    exact State.acceptConfigured_ok (of_decide_eq_true hs) _
  | backlightOn => exact State.acceptBacklight_ok (of_decide_eq_true h) _ _
  | backlightOff => exact State.acceptBacklight_ok (of_decide_eq_true h) _ _
  | _ => cases h

/-- Every other request is a contract violation (R144). -/
theorem acceptRequest_refused {i : Instr} {s : State} (hi : i.isRequest = true) (h : permitted s i = false) :
    acceptRequest i s = (s.accept i).contractViolation := by
  cases i with
  | init a => exact if_neg (of_decide_eq_false h)
  | clear => exact State.acceptConfigured_refused (by rwa [Bool.and_true]) _
  | setCursor col row => exact State.acceptConfigured_refused (by rwa [← permitted_setCursor]) _
  | putc code => exact State.acceptConfigured_refused h _
  | backlightOn => exact State.acceptBacklight_refused (of_decide_eq_false h) _ _
  | backlightOff => exact State.acceptBacklight_refused (of_decide_eq_false h) _ _
  | reserved w => rfl
  | _ => cases hi

/-- Acceptance in the words of the spec: a row that is no request is not accepted on the request port (R53, R65). -/
theorem acceptRequest_eq (i : Instr) (s : State) :
    acceptRequest i s =
      if permitted s i then (setUp i s).accept i else if i.isRequest then (s.accept i).contractViolation else s := by
  by_cases hp : permitted s i = true
  · rw [acceptRequest_permitted hp, if_pos hp]
  · rw [if_neg hp]
    by_cases hi : i.isRequest = true
    · rw [acceptRequest_refused hi (by simpa using hp), if_pos hi]
    · rw [if_neg hi]
      cases i with
      | init _ | clear | setCursor _ _ | putc _ | backlightOn | backlightOff | reserved _ => exact absurd rfl hi
      | _ => rfl

/-- A block with nothing running has nothing to go on with. -/
theorem State.resume_idle (s : State) (hb : s.busy = false) (hu : s.useq = .idle) : s.resume = s := by
  simp [State.resume, State.remaining, hu, runEvents, State.finish_idle s hb]

theorem serve_permitted {i : Instr} {s : State} (h : permitted s i = true) : serve i s = ((setUp i s).accept i).resume := by
  rw [serve_request (isRequest_of_permitted h), acceptRequest_permitted h]

theorem serve_refused {i : Instr} {s : State} (hi : i.isRequest = true) (h : permitted s i = false) :
    serve i s = (s.accept i).contractViolation := by
  rw [serve_request hi, acceptRequest_refused hi h, State.resume_idle _ rfl rfl]

/-- Every operation of the block but a reserved request has an event. -/
theorem eventList_ne_nil {i : Instr} (hp : i.isPseudo = false) (hr : ∀ w, i ≠ .reserved w) : eventList i ≠ [] := by
  cases i with
  | print text col row => cases hp
  | teardown => cases hp
  | reserved w => exact absurd rfl (hr w)
  | _ => exact List.cons_ne_nil _ _

/-! ## A step -/

/-- What a block that takes an input does with it. -/
inductive Takes : Input → (State → State) → Prop
  | word {e : Encoded} {i : Instr} (h : decode e = .ok i) : Takes (.word e) (serve i)
  | print (text : List Byte) (col row : Byte) : Takes (.print text col row) (serve (.print text col row))
  | teardown : Takes .teardown (serve .teardown)
  | cut (w : BitVec 24) (k : Nat) : Takes (.cut w k) (State.cutRequest (decodeRequest w) k)
  | reset : Takes .reset State.blockReset
  | powerCycle : Takes .powerCycle (State.emit .power)
  | foreignWrite (b : Byte) : Takes (.foreignWrite b) (State.emit (.foreign b))
  | hostWait (t : Delay) : Takes (.hostWait t) (State.emit (.hostWait t))

/-- The inputs that do not wait for `req_ready` (R136, R155; log 34). -/
def Input.asynchronous : Input → Bool
  | .reset | .powerCycle | .foreignWrite _ => true
  | .word _ | .print _ _ _ | .teardown | .cut _ _ | .hostWait _ => false

/-- What a step does, by `BUSY` and the inputs: an idle block rests or takes the next input, a busy one takes an asynchronous
input or goes on with its operation. -/
inductive StepBy : Bool → List Input → (State → State) → Prop
  | rest : StepBy false [] id
  | take {inp : Input} {rest : List Input} {f : State → State} (h : Takes inp f) :
      StepBy false (inp :: rest) (fun s => f { s with inputs := rest })
  | interrupt {inp : Input} {rest : List Input} {f : State → State} (ha : inp.asynchronous = true) (h : Takes inp f) :
      StepBy true (inp :: rest) (fun s => f { s with inputs := rest })
  | goOn {inputs : List Input} (h : ∀ inp ∈ inputs.head?, inp.asynchronous = false) :
      StepBy true inputs State.carryOn

/-- An idle block does with an input what `Takes` says. -/
theorem Takes.takeInput_eq {inp : Input} {f : State → State} (hf : Takes inp f) {s : State} (hb : s.busy = false) :
    takeInput inp s = .next (f s) := by
  cases hf with
  | word h => rw [takeInput, runEncoded, h]; exact exec_idle _ s hb
  | print text col row => exact exec_idle (.print text col row) s hb
  | teardown => exact exec_idle .teardown s hb
  | _ => rfl

/-- Every input is taken but a byte that is no row of its format. -/
theorem takes_of_takeInput_next {inp : Input} {s t : State} (h : takeInput inp s = .next t) : ∃ f, Takes inp f := by
  cases inp with
  | word e =>
    cases hd : decode e with
    | error why => simp [takeInput, runEncoded, hd] at h
    | ok i => exact ⟨_, .word hd⟩
  | print text col row => exact ⟨_, .print text col row⟩
  | teardown => exact ⟨_, .teardown⟩
  | cut w k => exact ⟨_, .cut w k⟩
  | reset => exact ⟨_, .reset⟩
  | powerCycle => exact ⟨_, .powerCycle⟩
  | foreignWrite b => exact ⟨_, .foreignWrite b⟩
  | hostWait d => exact ⟨_, .hostWait d⟩

theorem step_idle {s : State} (hb : s.busy = false) : step s = stepIdle s := by simp [step, hb]

theorem step_busy {s : State} (hb : s.busy = true) : step s = .next (stepBusy s) := by simp [step, hb]

theorem stepIdle_cons {s : State} {inp : Input} {rest : List Input} (hs : s.inputs = inp :: rest) :
    stepIdle s = takeInput inp { s with inputs := rest } := by rw [stepIdle, hs]

theorem stepIdle_nil {s : State} (hs : s.inputs = []) : stepIdle s = .next s := by rw [stepIdle, hs]

/-- An asynchronous input does to a busy block what it does to an idle one. -/
theorem Takes.stepBusy_eq {inp : Input} {f : State → State} (hf : Takes inp f) (ha : inp.asynchronous = true) {s : State}
    {rest : List Input} (hs : s.inputs = inp :: rest) : stepBusy s = f { s with inputs := rest } := by
  cases hf with
  | reset => rw [stepBusy, hs]
  | powerCycle => rw [stepBusy, hs]
  | foreignWrite b => rw [stepBusy, hs]
  | _ => cases ha

theorem stepBusy_eq_carryOn {s : State} (h : ∀ inp ∈ s.inputs.head?, inp.asynchronous = false) :
    stepBusy s = s.carryOn := by
  unfold stepBusy
  split <;> simp_all [Input.asynchronous]

theorem exists_takes_of_asynchronous {inp : Input} (ha : inp.asynchronous = true) : ∃ f, Takes inp f := by
  cases inp with
  | reset => exact ⟨_, .reset⟩
  | powerCycle => exact ⟨_, .powerCycle⟩
  | foreignWrite b => exact ⟨_, .foreignWrite b⟩
  | _ => cases ha

theorem Takes.step_eq {inp : Input} {f : State → State} (hf : Takes inp f) {s : State} {rest : List Input}
    (hb : s.busy = false) (hs : s.inputs = inp :: rest) : step s = .next (f { s with inputs := rest }) :=
  (step_idle hb).trans ((stepIdle_cons hs).trans (hf.takeInput_eq hb))

theorem Takes.step_eq_of_asynchronous {inp : Input} {f : State → State} (hf : Takes inp f) (ha : inp.asynchronous = true)
    {s : State} {rest : List Input} (hb : s.busy = true) (hs : s.inputs = inp :: rest) :
    step s = .next (f { s with inputs := rest }) := by
  rw [step_busy hb, hf.stepBusy_eq ha hs]

/-- A step does what `StepBy` says. -/
theorem StepBy.step_eq {s : State} {f : State → State} (h : StepBy s.busy s.inputs f) : step s = .next (f s) := by
  generalize hb : s.busy = busy at h
  generalize hs : s.inputs = inputs at h
  cases h with
  | rest => rw [step_idle hb, stepIdle_nil hs, id]
  | take hf => exact hf.step_eq hb hs
  | interrupt ha hf => exact hf.step_eq_of_asynchronous ha hb hs
  | goOn ha => rw [step_busy hb, stepBusy_eq_carryOn (hs ▸ ha)]

/-- A step that answers a next state does one of the things of `StepBy`. -/
theorem exists_stepBy {s t : State} (h : step s = .next t) : ∃ f, StepBy s.busy s.inputs f := by
  cases hb : s.busy with
  | false =>
    cases hs : s.inputs with
    | nil => exact ⟨_, .rest⟩
    | cons inp rest =>
      rw [step_idle hb, stepIdle_cons hs] at h
      obtain ⟨f, hf⟩ := takes_of_takeInput_next h
      exact ⟨_, .take hf⟩
  | true =>
    by_cases ha : ∀ inp ∈ s.inputs.head?, inp.asynchronous = false
    · exact ⟨_, .goOn ha⟩
    · cases hs : s.inputs with
      | nil => exact absurd (by simp [hs]) ha
      | cons inp rest =>
        obtain ⟨f, hf⟩ := exists_takes_of_asynchronous (by simpa [hs] using ha : inp.asynchronous = true)
        exact ⟨_, .interrupt (by simpa [hs] using ha) hf⟩

/-- Everything a step can do. -/
theorem step_next_iff {s t : State} : step s = .next t ↔ ∃ f, StepBy s.busy s.inputs f ∧ t = f s := by
  constructor
  · intro h
    obtain ⟨f, hf⟩ := exists_stepBy h
    exact ⟨f, hf, Host.Outcome.next.inj (h.symm.trans hf.step_eq)⟩
  · rintro ⟨f, hf, rfl⟩
    exact hf.step_eq

/-! ## The record and FAULT_CV over instructions and steps -/

theorem grown_begin (i : Instr) (s : State) : Grown s (s.begin i) := Grown.of_eq _ _ rfl rfl rfl rfl rfl id

theorem grown_serve (i : Instr) (s : State) : Grown s (serve i s) := by
  unfold serve
  split
  · exact grown_runTodo _ s
  · split
    · exact (grown_acceptRequest i s).trans (grown_resume _)
    · exact (grown_begin i s).trans (grown_resume _)

/-- A request that is cut runs for a while, and then comes the reset. -/
theorem exists_grown_cutRequest (i : Instr) (k : Nat) (s : State) :
    ∃ u, Grown s u ∧ s.cutRequest i k = u.blockReset := by
  have h : Grown s (runEvents ((acceptRequest i s).remaining.take k) (acceptRequest i s)) :=
    (grown_acceptRequest i s).trans (grown_runEvents _ _)
  refine ⟨_, ?_, rfl⟩
  split
  · exact h.trans (grown_finish _)
  · exact h

/-- The peripheral and its observer have taken what the record has gained. -/
def Recorded (s t : State) : Prop :=
  ∃ tr, t.out = s.out ++ tr ∧ t.lcd = s.lcd.observeAll tr ∧ t.panel = s.panel.followAll tr

theorem Grown.recorded {s t : State} (h : Grown s t) : Recorded s t := by
  obtain ⟨tr, used, hout, -, hlcd, hpanel⟩ := h.record
  exact ⟨tr, hout, hlcd, hpanel⟩

theorem Recorded.trans {s t u : State} (h : Recorded s t) (h' : Recorded t u) : Recorded s u := by
  obtain ⟨tr, hout, hlcd, hpanel⟩ := h
  obtain ⟨tr', hout', hlcd', hpanel'⟩ := h'
  exact ⟨tr ++ tr', by rw [hout', hout, List.append_assoc], by rw [hlcd', hlcd, Display.observeAll_append],
    by rw [hpanel', hpanel, Display.followAll_append]⟩

theorem grown_dropHanded (s : State) : Grown s s.dropHanded := by
  unfold State.dropHanded
  split
  · exact grown_emit _ s
  · exact Grown.refl s

/-- A reset of the block is an entry of the record like any other. -/
theorem recorded_blockReset (s : State) : Recorded s s.blockReset :=
  ((grown_dropHanded s).trans (grown_emit (.reset s.busy) _)).recorded

theorem Takes.recorded {inp : Input} {f : State → State} (h : Takes inp f) (s : State) : Recorded s (f s) := by
  cases h with
  | word h => exact (grown_serve _ s).recorded
  | print text col row => exact (grown_serve _ s).recorded
  | teardown => exact (grown_serve _ s).recorded
  | cut w k =>
    obtain ⟨u, hu, hcut⟩ := exists_grown_cutRequest (decodeRequest w) k s
    rw [hcut]
    exact hu.recorded.trans (recorded_blockReset u)
  | reset => exact recorded_blockReset s
  | powerCycle => exact (grown_emit _ s).recorded
  | foreignWrite b => exact (grown_emit _ s).recorded
  | hostWait d => exact (grown_emit _ s).recorded

theorem StepBy.recorded {b : Bool} {l : List Input} {f : State → State} (h : StepBy b l f) (s : State) :
    Recorded s (f s) := by
  cases h with
  | rest => exact (Grown.refl s).recorded
  | take hf => exact hf.recorded { s with inputs := _ }
  | interrupt ha hf => exact hf.recorded { s with inputs := _ }
  | goOn ha => exact (grown_carryOn s).recorded

/-- Settles O49: every step adds to the record and lets the display follow what it has added. -/
theorem observerFollowsTheRecord : Obligations.ObserverFollowsTheRecord := by
  rintro s t ⟨hlcd, hpanel⟩ hstep
  obtain ⟨f, hf, rfl⟩ := step_next_iff.1 hstep
  obtain ⟨tr, hout, hlcd', hpanel'⟩ := hf.recorded s
  rw [hlcd', hpanel', hout, Display.observeAll_append, Display.followAll_append, hlcd, hpanel]
  exact ⟨rfl, rfl⟩

/-- Only a reset, alone or cutting a request, clears `FAULT_CV` (R17). -/
theorem Takes.violation {inp : Input} {f : State → State} (h : Takes inp f) (hr : inp ≠ .reset)
    (hc : ∀ w k, inp ≠ .cut w k) (s : State) (hs : s.faultCv = true) : (f s).faultCv = true := by
  cases h with
  | word h => exact (grown_serve _ s).violation hs
  | print text col row => exact (grown_serve _ s).violation hs
  | teardown => exact (grown_serve _ s).violation hs
  | cut w k => exact absurd rfl (hc w k)
  | reset => exact absurd rfl hr
  | powerCycle => exact hs
  | foreignWrite b => exact hs
  | hostWait d => exact hs

/-- Settles O46: what a step takes, and what a busy block goes on with, only sets the flag. -/
theorem onlyResetClearsTheViolationFlag : Obligations.OnlyResetClearsTheViolationFlag := by
  intro s t hs hstep hreset hcut
  obtain ⟨f, hf, rfl⟩ := step_next_iff.1 hstep
  have taken {inp : Input} {rest : List Input} {f : State → State} (hl : s.inputs = inp :: rest) (h : Takes inp f) :
      (f { s with inputs := rest }).faultCv = true :=
    h.violation (by rintro rfl; exact hreset rest hl) (by rintro w k rfl; exact hcut w k rest hl) _ hs
  generalize s.busy = b at hf
  generalize hl : s.inputs = l at hf
  cases hf with
  | rest => exact hs
  | take h => exact taken hl h
  | interrupt ha h => exact taken hl h
  | goOn ha => exact (grown_carryOn s).violation hs

/-! ## Reset, the ports, a busy block -/

/-- Settles O39: the fields of the state after reset, and a step of it, are as R27 says by their definitions. -/
theorem resetLeavesTheRegistersOfTheSpec : Obligations.ResetLeavesTheRegistersOfTheSpec :=
  ⟨rfl, rfl, rfl, rfl, rfl, rfl, rfl, rfl, rfl, rfl⟩

/-- Settles O40: what is on the port is recorded as handed, then the reset, and the registers take their values. -/
theorem resetInputRestoresTheRegisters : Obligations.ResetInputRestoresTheRegisters := by
  intro s rest hs
  constructor
  · intro hb ht
    rw [Takes.reset.step_eq hb hs]
    simp [State.blockReset, State.dropHanded, ht, hb, resetRegisters, State.toIdle, State.freeReq, State.emit]
  · intro a b hb ht
    rw [Takes.reset.step_eq_of_asynchronous rfl hb hs]
    simp [State.blockReset, State.dropHanded, ht, hb, resetRegisters, State.toIdle, State.freeReq, State.emit]

/-- Settles O48: nothing runs and nothing has happened on the ports. -/
theorem invariantsHoldAtReset : Obligations.InvariantsHoldAtReset :=
  ⟨⟨fun _ => ⟨rfl, rfl, rfl, .inl rfl⟩, fun h => by cases h⟩, rfl, rfl, rfl, rfl⟩

/-- The fields of `STAT` stand where R23 puts them. -/
theorem stat_fields (busy fault bl : Bool) (phase : BitVec 2) (addr : Byte) :
    let w := BitVec.ofBool busy ++ BitVec.ofBool fault ++ BitVec.ofBool bl ++ phase ++ addr
    w.getLsbD 12 = busy ∧ w.getLsbD 11 = fault ∧ w.getLsbD 10 = bl ∧ w.extractLsb' 8 2 = phase ∧
      w.extractLsb' 0 8 = addr := by
  refine ⟨?_, ?_, ?_, ?_, ?_⟩
  · simp only [BitVec.getLsbD_append]; simp
  · simp only [BitVec.getLsbD_append]; simp
  · simp only [BitVec.getLsbD_append]; simp
  · ext i hi
    simp only [BitVec.getElem_extractLsb', BitVec.getLsbD_append]
    simp [hi]
  · exact BitVec.extractLsb'_append_eq_right

/-- Settles O38: the fields of `STAT`, and the tables of codes. -/
theorem portsShowTheirCodes : Obligations.PortsShowTheirCodes :=
  ⟨fun s => stat_fields s.busy s.faultCv s.bl s.phase.code s.addr,
    rfl, rfl, rfl, rfl, rfl, rfl, rfl, rfl, rfl, rfl, rfl, rfl⟩

/-- Settles O27: `exec` leaves a busy block as it is, and a request word is no asynchronous input, so a step goes on with the
operation, which takes no input. -/
theorem busyBlockTakesNothing : Obligations.BusyBlockTakesNothing := by
  refine fun i e rest s hb => ⟨exec_busy i s hb, fun hs => ⟨s.carryOn, ?_, (grown_carryOn s).inputs⟩⟩
  rw [step_busy hb, stepBusy_eq_carryOn (by simp [hs, Input.asynchronous])]

/-! ## What the block does not read

Two parts of the state are read by no operation: `FAULT_CV` (R17), and the peripheral with its observer (R26, R34). An
operation is blind to them when hiding them before it makes no difference but there. -/

/-- A part of the state that no operation reads. -/
inductive Unread where
  | violationFlag | displays
deriving DecidableEq, Repr

/-- The state with an unread part blanked. -/
def State.hide : Unread → State → State
  | .violationFlag, s => { s with faultCv := false }
  | .displays, s => { s with lcd := Display.initial, panel := Display.initial }

section
variable (x : Unread) (s : State)

@[simp] theorem State.hide_hide : (s.hide x).hide x = s.hide x := by cases x <;> rfl
@[simp] theorem State.hide_phase : (s.hide x).phase = s.phase := by cases x <;> rfl
@[simp] theorem State.hide_addr : (s.hide x).addr = s.addr := by cases x <;> rfl
@[simp] theorem State.hide_bl : (s.hide x).bl = s.bl := by cases x <;> rfl
@[simp] theorem State.hide_useq : (s.hide x).useq = s.useq := by cases x <;> rfl
@[simp] theorem State.hide_busy : (s.hide x).busy = s.busy := by cases x <;> rfl
@[simp] theorem State.hide_tx : (s.hide x).tx = s.tx := by cases x <;> rfl
@[simp] theorem State.hide_result : (s.hide x).result = s.result := by cases x <;> rfl
@[simp] theorem State.hide_answers : (s.hide x).answers = s.answers := by cases x <;> rfl
@[simp] theorem State.hide_todo : (s.hide x).todo = s.todo := by cases x <;> rfl

end

/-- `f` reads none of the unread parts. -/
def Blind (f : State → State) : Prop := ∀ (x : Unread) (s : State), (f (s.hide x)).hide x = (f s).hide x

theorem Blind.comp {f g : State → State} (hg : Blind g) (hf : Blind f) : Blind (fun s => g (f s)) := by
  intro x s
  calc (g (f (s.hide x))).hide x
      = (g ((f (s.hide x)).hide x)).hide x := (hg x _).symm
    _ = (g ((f s).hide x)).hide x := by rw [hf x s]
    _ = (g (f s)).hide x := hg x _

/-- What `f` does depends on a field that is read. -/
theorem Blind.of_read {α : Type} {read : State → α} (hr : ∀ x s, read (s.hide x) = read s) {f : α → State → State}
    (hf : ∀ a, Blind (f a)) : Blind (fun s => f (read s) s) := by
  intro x s
  show (f (read (s.hide x)) (s.hide x)).hide x = _
  rw [hr, hf]

theorem Blind.ite {c : State → Prop} [∀ s, Decidable (c s)] (hc : ∀ x s, c (s.hide x) ↔ c s) {f g : State → State}
    (hf : Blind f) (hg : Blind g) : Blind (fun s => if c s then f s else g s) := by
  intro x s
  by_cases h : c s
  · simpa [h, hc] using hf x s
  · simpa [h, hc] using hg x s

theorem blind_id : Blind (fun s => s) := fun _ _ => State.hide_hide _ _
theorem blind_emit (o : Out) : Blind (State.emit o) := by intro x s; cases x <;> rfl
theorem blind_accept (i : Instr) : Blind (State.accept i) := by intro x s; cases x <;> rfl
theorem blind_begin (i : Instr) : Blind (State.begin i) := by intro x s; cases x <;> rfl
theorem blind_respond (st : Status) : Blind (State.respond st) := by intro x s; cases x <;> rfl
theorem blind_release (st : Status) : Blind (State.release st) := by intro x s; cases x <;> rfl
theorem blind_contractViolation : Blind State.contractViolation := by intro x s; cases x <;> rfl
theorem blind_setTodo (l : List Instr) : Blind (fun s => { s with todo := l }) := by intro x s; cases x <;> rfl
theorem blind_setInputs (l : List Input) : Blind (fun s => { s with inputs := l }) := by intro x s; cases x <;> rfl
theorem blind_played (p : Play) : Blind (State.played p) := by intro x s; cases x <;> rfl
theorem blind_setUp (i : Instr) : Blind (setUp i) := by intro x s; cases x <;> cases i <;> rfl

theorem blind_conclude (st : Status) : Blind (State.conclude st) := by
  refine Blind.of_read State.hide_useq (f := fun u s => match u with
    | .running i _ => if i.isRequest then s.respond st else s.release st
    | .idle => s) fun u => ?_
  cases u with
  | idle => exact blind_id
  | running i k =>
    cases hi : i.isRequest with
    | true => simpa [hi] using blind_respond st
    | false => simpa [hi] using blind_release st

theorem blind_busError (st : Status) : Blind (State.busError st) :=
  (blind_conclude st).comp (f := fun s => { s with phase := s.phaseAfterAbort }) (by intro x s; cases x <;> rfl)

theorem blind_afterPlay (p : Play) : Blind (State.afterPlay p) := by
  intro x s
  cases hp : p.ending with
  | done => simpa only [State.afterPlay, hp] using blind_played p x s
  | waiting w => simp only [State.afterPlay, hp]; cases x <;> rfl
  | failed st => simpa only [State.afterPlay, hp] using (blind_busError st).comp (blind_played p) x s

theorem blind_runEvents (l : List Micro) : Blind (runEvents l) := by
  rw [funext (runEvents_eq_play l)]
  exact Blind.of_read (read := fun s => play s.addr s.bl s.phase l s.answers) (by simp) blind_afterPlay

theorem State.hide_remaining (x : Unread) (s : State) : (s.hide x).remaining = s.remaining := by
  simp [State.remaining]

theorem blind_finish : Blind State.finish :=
  Blind.ite (by simp) (blind_conclude .ok) blind_id

theorem blind_resume : Blind State.resume :=
  blind_finish.comp (Blind.of_read State.hide_remaining blind_runEvents)

theorem permitted_hide (i : Instr) (x : Unread) (s : State) : permitted (s.hide x) i = permitted s i := by
  cases i <;> simp [permitted]

theorem blind_acceptRequest (i : Instr) : Blind (acceptRequest i) := by
  rw [funext (acceptRequest_eq i)]
  exact Blind.ite (by simp [permitted_hide]) ((blind_accept i).comp (blind_setUp i))
    (Blind.ite (fun _ _ => Iff.rfl) (blind_contractViolation.comp (blind_accept i)) blind_id)

/-- What the host does when a request has been served: wait, go on after Ok, or stop. -/
theorem blind_afterResponse {wait next : State → State} (hw : Blind wait) (hn : Blind next) :
    Blind fun s => if s.busy then wait s else if s.result = some .ok then next s else { s with todo := [] } :=
  Blind.ite (by simp) hw (Blind.ite (by simp) hn (blind_setTodo []))

theorem blind_runTodo (l : List Instr) : Blind (runTodo l) := by
  induction l with
  | nil => exact blind_setTodo []
  | cons i rest ih =>
    exact (blind_afterResponse (blind_setTodo rest) ih).comp (blind_resume.comp (blind_acceptRequest i))

theorem blind_carryOn : Blind State.carryOn :=
  (blind_afterResponse blind_id (Blind.of_read State.hide_todo blind_runTodo)).comp blind_resume

theorem blind_serve (i : Instr) : Blind (serve i) :=
  Blind.ite (fun _ _ => Iff.rfl) (blind_runTodo _)
    (Blind.ite (fun _ _ => Iff.rfl) (blind_resume.comp (blind_acceptRequest i)) (blind_resume.comp (blind_begin i)))

theorem blind_dropHanded : Blind State.dropHanded := by
  refine Blind.of_read State.hide_tx (f := fun tx s => match tx with
    | some t => s.emit (.handed t.addr t.byte)
    | none => s) fun tx => ?_
  cases tx with
  | none => exact blind_id
  | some t => exact blind_emit _

theorem blind_blockReset : Blind State.blockReset := by
  have registers : Blind fun s => { s.toIdle.freeReq with
      phase := .uninitialized, addr := 0x00, bl := Config.blReset, faultCv := false, result := none, todo := [] } := by
    intro x s; cases x <;> rfl
  exact registers.comp (Blind.of_read State.hide_busy (f := fun b s => s.dropHanded.emit (.reset b)) fun b =>
    (blind_emit (.reset b)).comp blind_dropHanded)

theorem blind_cutRequest (i : Instr) (k : Nat) : Blind (State.cutRequest i k) := by
  have cut : Blind fun s => if s.remaining.length ≤ k then (runEvents (s.remaining.take k) s).finish
      else runEvents (s.remaining.take k) s := by
    refine Blind.of_read State.hide_remaining (f := fun l s => if l.length ≤ k then (runEvents (l.take k) s).finish
      else runEvents (l.take k) s) fun l => ?_
    exact Blind.ite (fun _ _ => Iff.rfl) (blind_finish.comp (blind_runEvents _)) (blind_runEvents _)
  exact blind_blockReset.comp (cut.comp (blind_acceptRequest i))

theorem Takes.blind {inp : Input} {f : State → State} (h : Takes inp f) : Blind f := by
  cases h with
  | word h => exact blind_serve _
  | print text col row => exact blind_serve _
  | teardown => exact blind_serve _
  | cut w k => exact blind_cutRequest _ k
  | reset => exact blind_blockReset
  | powerCycle => exact blind_emit _
  | foreignWrite b => exact blind_emit _
  | hostWait d => exact blind_emit _

theorem StepBy.blind {b : Bool} {l : List Input} {f : State → State} (h : StepBy b l f) : Blind f := by
  cases h with
  | rest => exact blind_id
  | take hf => exact hf.blind.comp (blind_setInputs _)
  | interrupt ha hf => exact hf.blind.comp (blind_setInputs _)
  | goOn ha => exact blind_carryOn

/-- States that differ in an unread part alone are taken to such states. -/
theorem Blind.hide_eq {f : State → State} (hf : Blind f) {x : Unread} {s t : State} (h : s.hide x = t.hide x) :
    (f s).hide x = (f t).hide x := by
  rw [← hf x s, h, hf x t]

theorem eq_of_hide_violationFlag {s t : State} (h : s.hide .violationFlag = t.hide .violationFlag) :
    s = { t with faultCv := s.faultCv } :=
  congrArg (fun u : State => { u with faultCv := s.faultCv }) h

theorem eq_of_hide_displays {s t : State} (h : s.hide .displays = t.hide .displays) :
    s = { t with lcd := s.lcd, panel := s.panel } :=
  congrArg (fun u : State => { u with lcd := s.lcd, panel := s.panel }) h

/-- Settles O22: what `exec` does is blind to the flag. -/
theorem violationFlagChangesNothing : Obligations.ViolationFlagChangesNothing := by
  intro i s t b h
  rw [exec_eq_serve] at h ⊢
  cases h
  have hblind : Blind fun s => if s.busy then s else serve i s := Blind.ite (by simp) blind_id (blind_serve i)
  have hside : { s with faultCv := b }.hide .violationFlag = s.hide .violationFlag := rfl
  exact ⟨_, congrArg _ (eq_of_hide_violationFlag (hblind.hide_eq hside))⟩

/-- Settles O50: what a step does is given by `BUSY` and the inputs, and is blind to the displays. -/
theorem blockReadsNothingOfThePeripheral : Obligations.BlockReadsNothingOfThePeripheral := by
  intro s t d p h
  obtain ⟨f, hf, rfl⟩ := step_next_iff.1 h
  have hside : { s with lcd := d, panel := p }.hide .displays = s.hide .displays := rfl
  have hstep : step { s with lcd := d, panel := p } = .next (f { s with lcd := d, panel := p }) := StepBy.step_eq hf
  exact ⟨_, _, hstep.trans (congrArg _ (eq_of_hide_displays (hf.blind.hide_eq hside)))⟩

/-! ## What running an operation keeps, and where it stops -/

/-- The registers that neither an event nor a response touches, and the requests still to be issued. -/
structure SameRegisters (s t : State) : Prop where
  addr : t.addr = s.addr
  bl : t.bl = s.bl
  faultCv : t.faultCv = s.faultCv
  todo : t.todo = s.todo

theorem SameRegisters.trans {s t u : State} (h : SameRegisters s t) (h' : SameRegisters t u) : SameRegisters s u :=
  ⟨h'.addr.trans h.addr, h'.bl.trans h.bl, h'.faultCv.trans h.faultCv, h'.todo.trans h.todo⟩

theorem sameRegisters_conclude (st : Status) (s : State) : SameRegisters s (s.conclude st) := by
  unfold State.conclude
  split
  · split <;> exact ⟨rfl, rfl, rfl, rfl⟩
  · exact ⟨rfl, rfl, rfl, rfl⟩

theorem sameRegisters_afterPlay (p : Play) (s : State) : SameRegisters s (s.afterPlay p) := by
  unfold State.afterPlay
  split
  · exact ⟨rfl, rfl, rfl, rfl⟩
  · exact ⟨rfl, rfl, rfl, rfl⟩
  · obtain ⟨haddr, hbl, hfault, htodo⟩ :=
      sameRegisters_conclude _ { s.played p with phase := (s.played p).phaseAfterAbort }
    exact ⟨haddr, hbl, hfault, htodo⟩

theorem sameRegisters_resume (s : State) : SameRegisters s s.resume := by
  rw [State.resume, runEvents_eq_play]
  generalize play s.addr s.bl s.phase s.remaining s.answers = p
  have hplay := sameRegisters_afterPlay p s
  unfold State.finish
  split
  · exact hplay.trans (sameRegisters_conclude .ok _)
  · exact hplay

/-- The block waits at event `k` of `i`, which writes `w`; beside the phase, its registers are those of `s`. -/
structure WaitsAt (s t : State) (i : Instr) (k : Nat) (w : BusWord) : Prop where
  event : ∃ p, (eventList i)[k]? = some ⟨.write w, p⟩
  busy : t.busy = true
  useq : t.useq = .running i k
  tx : t.tx = some ⟨s.addr, w.word s.bl⟩
  req : t.req = s.req

/-- The sequencer is at rest in the phase `ph`. -/
structure RestsIn (t : State) (ph : Phase) : Prop where
  busy : t.busy = false
  useq : t.useq = .idle
  tx : t.tx = none
  phase : t.phase = ph

theorem restsIn_conclude {s : State} {i : Instr} {k : Nat} (st : Status) (hu : s.useq = .running i k) :
    RestsIn (s.conclude st) s.phase := by
  obtain ⟨hbusy, huseq, htx, hphase, -⟩ := s.conclude_running st i k hu
  exact ⟨hbusy, huseq, htx, hphase⟩

/-- R92, R147. -/
theorem restsIn_busError {s : State} {i : Instr} {k : Nat} (st : Status) (hu : s.useq = .running i k) :
    RestsIn (s.busError st) (phaseFailed i s.phase) := by
  have hphase : s.phaseAfterAbort = phaseFailed i s.phase := by
    rw [State.phaseAfterAbort, hu]
    cases i <;> rfl
  rw [State.busError, hphase]
  exact restsIn_conclude (s := { s with phase := phaseFailed i s.phase }) st hu

/-- An operation with events left waits at a bus write, ends after its last event, or ends at a bus error. -/
theorem resume_waits_or_rests {s : State} {i : Instr} {k : Nat} (hb : s.busy = true) (hu : s.useq = .running i k)
    (hl : (eventList i).drop k ≠ []) :
    (∃ n w, WaitsAt s s.resume i (k + n) w ∧ s.resume.phase = phaseAfter s.phase (((eventList i).drop k).take n)) ∨
    RestsIn s.resume (phaseAfter s.phase ((eventList i).drop k)) ∨
    ∃ n, RestsIn s.resume (phaseFailed i (phaseAfter s.phase (((eventList i).drop k).take n))) := by
  have hcases := s.resume_cases i k hb hu hl
  have hphase := play_phase s.addr s.bl s.phase ((eventList i).drop k) s.answers
  have hwait := play_waiting s.addr s.bl s.phase ((eventList i).drop k) s.answers
  have hdone := play_done s.addr s.bl s.phase ((eventList i).drop k) s.answers
  generalize play s.addr s.bl s.phase ((eventList i).drop k) s.answers = p at *
  have hplayed : (s.played p).useq = .running i (k + p.count) := by rw [State.played, hu]; rfl
  rcases hcases with ⟨x, he, h⟩ | ⟨he, h⟩ | ⟨st, -, h⟩
  · obtain ⟨⟨w, q, hevent, rfl⟩, -, -⟩ := hwait x he
    refine .inl ⟨p.count, w, ?_, by rw [h]; exact hphase⟩
    rw [h]
    exact ⟨⟨q, by rwa [List.getElem?_drop] at hevent⟩, hb, hplayed, rfl, rfl⟩
  · refine .inr (.inl ?_)
    rw [hdone he, List.take_length] at hphase
    rw [h, ← hphase]
    exact restsIn_conclude .ok hplayed
  · refine .inr (.inr ⟨p.count, ?_⟩)
    rw [h, ← hphase]
    exact restsIn_busError st hplayed

/-- Only INIT has events that change `PHASE` (R24). -/
theorem eventList_phaseAfter {i : Instr} (hi : i.isInit = false) : ∀ m ∈ eventList i, m.phaseAfter = none := by
  have h : (eventList i).all (fun m => m.phaseAfter.isNone) = true := by
    cases i with
    | init a => cases hi
    | _ => rfl
  simpa using h

theorem phaseAfter_of_none {l : List Micro} (h : ∀ m ∈ l, m.phaseAfter = none) (ph : Phase) : phaseAfter ph l = ph := by
  induction l with
  | nil => rfl
  | cons m rest ih =>
    rw [phaseAfter, List.foldl_cons, h m (by simp)]
    exact ih fun m hm => h m (by simp [hm])

theorem phaseAfter_drop {i : Instr} (hi : i.isInit = false) (ph : Phase) (k : Nat) :
    phaseAfter ph ((eventList i).drop k) = ph :=
  phaseAfter_of_none (fun m hm => eventList_phaseAfter hi m (List.mem_of_mem_drop hm)) ph

theorem phaseAfter_take_drop {i : Instr} (hi : i.isInit = false) (ph : Phase) (k n : Nat) :
    phaseAfter ph (((eventList i).drop k).take n) = ph :=
  phaseAfter_of_none (fun m hm => eventList_phaseAfter hi m (List.mem_of_mem_drop (List.mem_of_mem_take hm))) ph

theorem phaseFailed_of_not_init {i : Instr} (hi : i.isInit = false) (ph : Phase) : phaseFailed i ph = ph := by
  cases i with
  | init a => cases hi
  | _ => rfl

/-- Only INIT changes `PHASE`, whether its writes are answered, fail or wait (R24, R147). -/
theorem resume_phase {s : State} {i : Instr} {k : Nat} (hb : s.busy = true) (hu : s.useq = .running i k)
    (hl : (eventList i).drop k ≠ []) (hi : i.isInit = false) : s.resume.phase = s.phase := by
  rcases resume_waits_or_rests hb hu hl with ⟨n, w, -, h⟩ | h | ⟨n, h⟩
  · rw [h, phaseAfter_take_drop hi]
  · rw [h.phase, phaseAfter_drop hi]
  · rw [h.phase, phaseFailed_of_not_init hi, phaseAfter_take_drop hi]

theorem eventList_ne_nil_of_permitted {i : Instr} {s : State} (h : permitted s i = true) : eventList i ≠ [] := by
  exact eventList_ne_nil (isPseudo_of_isRequest (isRequest_of_permitted h)) (by rintro w rfl; cases h)

theorem setUp_phase (i : Instr) (s : State) : (setUp i s).phase = s.phase := by cases i <;> rfl
theorem setUp_faultCv (i : Instr) (s : State) : (setUp i s).faultCv = s.faultCv := by cases i <;> rfl
theorem setUp_todo (i : Instr) (s : State) : (setUp i s).todo = s.todo := by cases i <;> rfl

theorem setUp_addr {i : Instr} (hi : i.isInit = false) (s : State) : (setUp i s).addr = s.addr := by
  cases i with
  | init a => cases hi
  | _ => rfl

theorem setUp_bl {i : Instr} (hon : i ≠ .backlightOn) (hoff : i ≠ .backlightOff) (s : State) :
    (setUp i s).bl = s.bl := by
  cases i with
  | backlightOn => exact absurd rfl hon
  | backlightOff => exact absurd rfl hoff
  | _ => rfl

/-- A request other than INIT leaves `PHASE` and `ADDR`, whatever the answers (R24, R30). -/
theorem serve_phase_addr {i : Instr} (hr : i.isRequest = true) (hi : i.isInit = false) (s : State) :
    (serve i s).phase = s.phase ∧ (serve i s).addr = s.addr := by
  cases hp : permitted s i with
  | false => rw [serve_refused hr hp]; exact ⟨rfl, rfl⟩
  | true =>
    rw [serve_permitted hp]
    have hl : (eventList i).drop 0 ≠ [] := eventList_ne_nil_of_permitted hp
    exact ⟨(resume_phase rfl rfl hl hi).trans (setUp_phase i s), (sameRegisters_resume _).addr.trans (setUp_addr hi s)⟩

theorem serve_todo {i : Instr} (hr : i.isRequest = true) (s : State) : (serve i s).todo = s.todo := by
  cases hp : permitted s i with
  | false => rw [serve_refused hr hp]; rfl
  | true => rw [serve_permitted hp]; exact (sameRegisters_resume _).todo.trans (setUp_todo i s)

/-- `BL` after a request is what its acceptance makes of it (R112). -/
theorem serve_bl {i : Instr} (hr : i.isRequest = true) (hon : i ≠ .backlightOn) (hoff : i ≠ .backlightOff) (s : State) :
    (serve i s).bl = s.bl := by
  cases hp : permitted s i with
  | false => rw [serve_refused hr hp]; rfl
  | true =>
    rw [serve_permitted hp]
    exact (sameRegisters_resume _).bl.trans (setUp_bl hon hoff s)

/-- A permitted request leaves `FAULT_CV`, every other sets it (R17). -/
theorem serve_faultCv {i : Instr} (hr : i.isRequest = true) (s : State) :
    (serve i s).faultCv = (s.faultCv || !permitted s i) := by
  cases hp : permitted s i with
  | false => rw [serve_refused hr hp]; simp
  | true => rw [serve_permitted hp, (sameRegisters_resume _).faultCv]; simp [setUp_faultCv]

/-- Settles O21: no instruction clears the flag, and a request sets it exactly where it is refused. -/
theorem violationFlagIsSticky : Obligations.ViolationFlagIsSticky := by
  refine fun i s => ⟨_, exec_eq_serve i s, fun hs => ?_, fun hr hb => ?_⟩
  · split
    · exact hs
    · exact (grown_serve i s).violation hs
  · simp [hb, serve_faultCv hr]

/-- Settles O32: what all operations keep (`Grown`), and the registers by the kind of the request. -/
theorem requestsWriteOnlyTheirRegisters : Obligations.RequestsWriteOnlyTheirRegisters := by
  intro i s hr hb
  have h := grown_serve i s
  exact ⟨serve i s, exec_idle i s hb, h.inputs, serve_todo hr s, h.record,
    fun hi => serve_phase_addr hr (isInit_eq_false hi) s, fun hon hoff => serve_bl hr hon hoff s⟩

/-- INIT is refused in `Configured`. -/
theorem serve_request_configured {i : Instr} (hr : i.isRequest = true) {s : State} (hs : s.phase = .configured) :
    (serve i s).phase = .configured ∧ (serve i s).addr = s.addr := by
  cases hi : i.isInit with
  | false => exact ⟨(serve_phase_addr hr hi s).1.trans hs, (serve_phase_addr hr hi s).2⟩
  | true =>
    obtain ⟨a, rfl⟩ := exists_eq_init hi
    have hp : permitted s (.init a) = false := by simp [permitted, hs]
    rw [serve_refused hr hp]
    exact ⟨hs, rfl⟩

theorem runTodo_configured {l : List Instr} (hl : ∀ i ∈ l, i.isRequest = true) {s : State} (hs : s.phase = .configured) :
    (runTodo l s).phase = .configured ∧ (runTodo l s).addr = s.addr := by
  induction l generalizing s with
  | nil => exact ⟨hs, rfl⟩
  | cons i rest ih =>
    have hi := hl i (by simp)
    obtain ⟨hphase, haddr⟩ := serve_request_configured hi hs
    have hrest := ih (fun j hj => hl j (by simp [hj])) hphase
    rw [serve_request hi] at hphase haddr hrest
    simp only [runTodo]
    split
    · exact ⟨hphase, haddr⟩
    · split
      · exact ⟨hrest.1, hrest.2.trans haddr⟩
      · exact ⟨hphase, haddr⟩

theorem serve_configured (i : Instr) {s : State} (hs : s.phase = .configured) :
    (serve i s).phase = .configured ∧ (serve i s).addr = s.addr := by
  cases hp : i.isPseudo with
  | true => rw [serve_pseudo hp]; exact runTodo_configured (fun j hj => isRequest_of_mem_expand hp hj) hs
  | false =>
    cases hr : i.isRequest with
    | true => exact serve_request_configured hr hs
    | false =>
      rw [serve_emitted hp hr]
      have hl : (eventList i).drop 0 ≠ [] := eventList_ne_nil hp (by rintro w rfl; cases hr)
      have hi : i.isInit = false := isInit_eq_false (by rintro a rfl; cases hr)
      exact ⟨(resume_phase rfl rfl hl hi).trans hs, (sameRegisters_resume _).addr⟩

/-- Settles O33: in `Configured` INIT is refused, and nothing else writes `PHASE` or `ADDR`. -/
theorem configuredIsTerminal : Obligations.ConfiguredIsTerminal := by
  refine fun i s hs => ⟨_, exec_eq_serve i s, fun hb => ?_⟩
  rw [hb]
  exact serve_configured i hs

/-! ## The words of a request -/

/-- Only control bits stand in bits 3:0: a nibble value has them clear (R58), and a backlight word has no nibble (R61). -/
def BusWord.leavesControlBits : BusWord → Bool
  | .nibble n _ _ => n &&& 0x0F#8 == 0#8
  | .backlight => true
  | .raw _ => false

/-- So for the word of an event. -/
def Micro.leavesControlBits (m : Micro) : Bool :=
  match m.ev with
  | .write w => w.leavesControlBits
  | .wait _ => true

theorem hi_and_0x0F (x : Byte) : hi x &&& 0x0F#8 = 0#8 := by
  rw [hi, BitVec.and_assoc, show (0xF0 : Byte) &&& 0x0F#8 = 0#8 from rfl]
  exact BitVec.and_zero

theorem lo_and_0x0F (x : Byte) : lo x &&& 0x0F#8 = 0#8 := hi_and_0x0F (x <<< 4)

theorem nibblePulse_leavesControlBits {n : Byte} (hn : n &&& 0x0F#8 = 0#8) (m : Mode) (lowHold : Delay) :
    (nibblePulse n m lowHold).all Micro.leavesControlBits = true := by
  simp [nibblePulse, busWriteEvents, waitEvents, Micro.leavesControlBits, BusWord.leavesControlBits, hn]

theorem byteWriteEvents_leavesControlBits (x : Byte) (m : Mode) :
    (byteWriteEvents x m).all Micro.leavesControlBits = true := by
  rw [byteWriteEvents, List.all_append, nibbleWriteEvents, nibbleWriteEvents,
    nibblePulse_leavesControlBits (hi_and_0x0F x), nibblePulse_leavesControlBits (lo_and_0x0F x)]
  rfl

theorem eventList_leavesControlBits {i : Instr} (hr : i.isRequest = true) :
    (eventList i).all Micro.leavesControlBits = true := by
  cases i with
  | init a => rfl
  | clear => rfl
  | setCursor col row => exact byteWriteEvents_leavesControlBits _ _
  | putc code => exact byteWriteEvents_leavesControlBits _ _
  | backlightOn => rfl
  | backlightOff => rfl
  | reserved w => rfl
  | _ => cases hr

theorem hasBit_or {n c mask : Byte} (hn : n &&& 0x0F#8 = 0#8) (hm : 0x0F#8 &&& mask = mask) :
    hasBit (n ||| c) mask = hasBit c mask := by
  have hz : n &&& mask = 0#8 := by rw [← hm, ← BitVec.and_assoc, hn, BitVec.zero_and]
  rw [hasBit, BitVec.and_or_distrib_right, hz, BitVec.zero_or, hasBit]

/-- R55: the backlight bit of such a word is `BL`, and bit 1 is clear. -/
theorem BusWord.word_bits {w : BusWord} (h : w.leavesControlBits = true) (bl : Bool) :
    hasBit (w.word bl) Config.blMask = bl ∧ hasBit (w.word bl) 0x02 = false := by
  cases w with
  | nibble n m enable =>
    have hn : n &&& 0x0F#8 = 0#8 := by simpa [BusWord.leavesControlBits] using h
    cases enable with
    | false =>
      rw [BusWord.word, hasBit_or hn rfl, hasBit_or hn rfl]
      cases m <;> cases bl <;> decide
    | true =>
      rw [BusWord.word, BitVec.or_assoc, hasBit_or hn rfl, hasBit_or hn rfl]
      cases m <;> cases bl <;> decide
  | backlight => cases bl <;> decide
  | raw w => cases h

/-- A play writes words of its events, to the address. -/
theorem play_writes {addr : Byte} {bl : Bool} {ph : Phase} {l : List Micro} {as : List (BitVec 2)} {a b : Byte}
    {r : TxResult} (h : Out.w a b r ∈ (play addr bl ph l as).out) :
    a = addr ∧ ∃ w p, ⟨.write w, p⟩ ∈ l ∧ b = w.word bl := by
  induction l generalizing ph as with
  | nil => cases h
  | cons m ms ih =>
    have later {ph as} (h : Out.w a b r ∈ (play addr bl ph ms as).out) :
        a = addr ∧ ∃ w p, ⟨.write w, p⟩ ∈ m :: ms ∧ b = w.word bl := by
      obtain ⟨ha, w, p, hw, hb⟩ := ih h
      exact ⟨ha, w, p, List.mem_cons_of_mem _ hw, hb⟩
    obtain ⟨ev, p⟩ := m
    cases ev with
    | wait t =>
      simp only [play, Play.cons, List.mem_cons, reduceCtorEq, false_or] at h
      exact later h
    | write w =>
      have now (h : a = addr ∧ b = w.word bl) :
          a = addr ∧ ∃ w' p', ⟨.write w', p'⟩ ∈ ⟨.write w, p⟩ :: ms ∧ b = w'.word bl :=
        ⟨h.1, w, p, List.mem_cons_self, h.2⟩
      cases as with
      | nil => simp [play] at h
      | cons c cs =>
        simp only [play] at h
        cases hc : TxResult.ofCode c with
        | ok =>
          simp only [hc, Play.cons, List.mem_cons, Out.w.injEq] at h
          rcases h with ⟨ha, hb, -⟩ | h
          · exact now ⟨ha, hb⟩
          · exact later h
        | unreachable =>
          simp only [hc, List.mem_singleton, Out.w.injEq] at h
          exact now ⟨h.1, h.2.1⟩
        | ioFailure =>
          simp only [hc, List.mem_singleton, Out.w.injEq] at h
          exact now ⟨h.1, h.2.1⟩

theorem conclude_out (st : Status) (s : State) :
    (s.conclude st).out = s.out ∨ (s.conclude st).out = s.out ++ [.resp st] := by
  unfold State.conclude
  split
  · split
    · exact .inr rfl
    · exact .inl rfl
  · exact .inl rfl

/-- What running an operation adds to the record: its play, and at most one response. -/
theorem resume_out {s : State} {i : Instr} {k : Nat} (hb : s.busy = true) (hu : s.useq = .running i k)
    (hl : (eventList i).drop k ≠ []) :
    ∃ tail, s.resume.out = s.out ++ ((play s.addr s.bl s.phase ((eventList i).drop k) s.answers).out ++ tail) ∧
      ∀ o ∈ tail, ∃ st, o = .resp st := by
  have hcases := s.resume_cases i k hb hu hl
  generalize play s.addr s.bl s.phase ((eventList i).drop k) s.answers = p at *
  have ended {t : State} {st : Status} (h : t.out = s.out ++ p.out ∨ t.out = s.out ++ p.out ++ [.resp st]) :
      ∃ tail, t.out = s.out ++ (p.out ++ tail) ∧ ∀ o ∈ tail, ∃ st, o = .resp st := by
    rcases h with h | h
    · exact ⟨[], by simp [h], by simp⟩
    · exact ⟨[.resp st], by simp [h], by simp⟩
  rcases hcases with ⟨x, -, h⟩ | ⟨-, h⟩ | ⟨st, -, h⟩
  · exact ended (st := .ok) (.inl (by rw [h]; rfl))
  · exact ended (by rw [h]; exact conclude_out .ok (s.played p))
  · exact ended (by rw [h]; exact conclude_out st { s.played p with phase := (s.played p).phaseAfterAbort })

/-- Settles O34: a request writes words of its event list, which leave the control bits to `BL`, and goes to `ADDR`. -/
theorem everyWordCarriesTheBacklightBit : Obligations.EveryWordCarriesTheBacklightBit := by
  intro i s hr hb
  rw [exec_idle i s hb]
  cases hp : permitted s i with
  | false =>
    refine ⟨_, [.resp .contractViolation], rfl, by rw [serve_refused hr hp]; rfl, ?_⟩
    simp
  | true =>
    rw [serve_permitted hp]
    have hkept := sameRegisters_resume ((setUp i s).accept i)
    have hout : (setUp i s).out = s.out := by cases i <;> rfl
    obtain ⟨tail, htr, htail⟩ := resume_out (s := (setUp i s).accept i) rfl rfl (eventList_ne_nil_of_permitted hp)
    refine ⟨_, _, rfl, htr.trans (congrArg (· ++ _) hout), fun a w r hw => ?_⟩
    rcases List.mem_append.1 hw with hw | hw
    · obtain ⟨ha, v, p, hv, rfl⟩ := play_writes hw
      have hbits := BusWord.word_bits (List.all_eq_true.1 (eventList_leavesControlBits hr) _ hv) ((setUp i s).accept i).bl
      rw [hkept.addr, hkept.bl]
      exact ⟨ha, hbits⟩
    · obtain ⟨st, hst⟩ := htail _ hw
      cases hst

/-! ## A request whose answers run out -/

/-- R101, R60: OR-ing the command flag to an address in range adds it. -/
theorem cursorCommand_eq_cursorByte {col row : Byte} (hc : col.toNat ≤ 15) (hr : row.toNat ≤ 1) :
    cursorCommand col row = cursorByte col row := by
  have haddr : ddram col row = row.toNat * 0x40 + col.toNat := by
    obtain h | h : row.toNat = 0 ∨ row.toNat = 1 := by omega
    · simp [ddram, h, Config.rowOffset]
    · simp [ddram, h, Config.rowOffset]
  have hlt : row.toNat * 0x40 + col.toNat < 2 ^ 7 := by omega
  rw [cursorCommand, cursorByte, haddr]
  apply BitVec.eq_of_toNat_eq
  have hflag : 128 ||| (row.toNat * 64 + col.toNat) = 128 + (row.toNat * 64 + col.toNat) :=
    (Nat.two_pow_add_eq_or_of_lt hlt 1).symm
  rw [BitVec.toNat_or, BitVec.toNat_add, BitVec.toNat_ofNat, Nat.mod_eq_of_lt (by omega : _ < 2 ^ 8)]
  show 128 ||| _ = (128 + _) % 2 ^ 8
  rw [hflag, Nat.mod_eq_of_lt (by omega)]

/-- The events of a permitted request are those the spec gives it (R83). -/
theorem requestTrace_eq_okTrace {i : Instr} {s : State} (h : permitted s i = true) (a : Byte) (bl : Bool) :
    requestTrace a bl i = okTrace a bl (eventList i) := by
  cases i with
  | init addr => rfl
  | clear => rfl
  | setCursor col row =>
    rw [permitted_setCursor, cursorInRange_eq] at h
    simp only [Bool.and_eq_true, decide_eq_true_eq] at h
    rw [requestTrace, ← cursorCommand_eq_cursorByte h.2.1 h.2.2]
    rfl
  | putc code => rfl
  | backlightOn => rfl
  | backlightOff => rfl
  | _ => cases h

theorem writesOf_eventList {i : Instr} (h : i.isRequest = true) : writesOf (eventList i) = writeCount i := by
  cases i with
  | init _ | clear | setCursor _ _ | putc _ | backlightOn | backlightOff | reserved _ => rfl
  | _ => cases h

theorem beforeWrite_wait (n : Nat) (t : Delay) (l : List Out) : beforeWrite n (.d t :: l) = .d t :: beforeWrite n l := by
  cases n <;> rfl

theorem writeAt_wait (n : Nat) (t : Delay) (l : List Out) : writeAt n (.d t :: l) = writeAt n l := by
  cases n <;> rfl

/-- With Ok for the first `n` writes and no more answers, a list with more writes than that waits at the next. -/
theorem play_answers_run_out (a : Byte) (bl : Bool) (ph : Phase) {l : List Micro} {n : Nat} (hn : n < writesOf l) :
    ∃ x, writeAt n (okTrace a bl l) = some ⟨a, x⟩ ∧
      play a bl ph l (List.replicate n 0) =
        ⟨beforeWrite n (okTrace a bl l), [], (beforeWrite n (okTrace a bl l)).length,
          phaseAfter ph (l.take (beforeWrite n (okTrace a bl l)).length), .waiting x⟩ := by
  induction l generalizing n ph with
  | nil => cases hn
  | cons m ms ih =>
    obtain ⟨ev, p⟩ := m
    cases ev with
    | wait t =>
      have hw : writesOf (⟨.wait t, p⟩ :: ms) = writesOf ms := by simp [writesOf]
      obtain ⟨x, hx, hplay⟩ := ih (p.getD ph) (hw ▸ hn)
      have htrace : okTrace a bl (⟨.wait t, p⟩ :: ms) = .d t :: okTrace a bl ms := rfl
      rw [htrace, writeAt_wait, beforeWrite_wait, play, hplay]
      exact ⟨x, hx, rfl⟩
    | write w =>
      have hw : writesOf (⟨.write w, p⟩ :: ms) = writesOf ms + 1 := by simp [writesOf]
      cases n with
      | zero => exact ⟨w.word bl, rfl, rfl⟩
      | succ n =>
        obtain ⟨x, hx, hplay⟩ := ih (p.getD ph) (n := n) (by omega)
        refine ⟨x, hx, ?_⟩
        rw [List.replicate_succ, play]
        show (play a bl (p.getD ph) ms (List.replicate n 0)).cons (.w a (w.word bl) .ok) = _
        rw [hplay]
        rfl

/-- R87: the phases of INIT by the number of completed events. -/
theorem phaseAfter_initEvents (k : Nat) : phaseAfter .uninitialized (initEvents.take k) = initPhase k := by
  by_cases h : k < 64
  · have hall : ∀ k : Fin 64, phaseAfter .uninitialized (initEvents.take k) = initPhase k := by decide
    exact hall ⟨k, h⟩
  · rw [List.take_of_length_le (show initEvents.length ≤ k from by show 63 ≤ k; omega), initPhase, if_neg (by omega),
      if_neg (by omega), if_neg (by omega)]
    rfl

theorem phaseAfter_eventList_take {i : Instr} {s : State} (h : permitted s i = true) (k : Nat) :
    phaseAfter s.phase ((eventList i).take k) = phaseAt i k s.phase := by
  cases hi : i.isInit with
  | true =>
    obtain ⟨a, rfl⟩ := exists_eq_init hi
    rw [show s.phase = .uninitialized from of_decide_eq_true h]
    exact phaseAfter_initEvents k
  | false =>
    have hat : phaseAt i k s.phase = s.phase := by
      cases i with
      | init a => cases hi
      | _ => rfl
    rw [hat]
    exact phaseAfter_take_drop hi s.phase 0 k

theorem resume_of_waiting {s : State} {i : Instr} {p : Play} {x : Byte} (hu : s.useq = .running i 0)
    (hp : play s.addr s.bl s.phase (eventList i) s.answers = p) (he : p.ending = .waiting x) :
    s.resume = { s.played p with tx := some ⟨s.addr, x⟩ } := by
  have hr : s.remaining = eventList i := by rw [State.remaining, hu]; rfl
  have hplay : s.afterPlay p = { s.played p with tx := some ⟨s.addr, x⟩ } := by rw [State.afterPlay, he]
  rw [State.resume, hr, runEvents_eq_play, hp, hplay]
  exact State.finish_waiting _ _ rfl

/-- What a request writes before its first event is no event (R86, R112). -/
theorem setUp_ports (i : Instr) (s : State) :
    (setUp i s).answers = s.answers ∧ (setUp i s).out = s.out ∧ (setUp i s).lcd = s.lcd ∧
      (setUp i s).panel = s.panel := by
  cases i <;> exact ⟨rfl, rfl, rfl, rfl⟩

/-- Settles O24: the play of the request's events against the answers waits at the write that has none. -/
theorem unansweredWriteLeavesTheBlockBusy : Obligations.UnansweredWriteLeavesTheBlockBusy := by
  intro i s n hb hp hn ha
  obtain ⟨hans, hout, hlcd, hpanel⟩ := setUp_ports i s
  rw [← writesOf_eventList (isRequest_of_permitted hp)] at hn
  obtain ⟨x, hx, hplay⟩ := play_answers_run_out (setUp i s).addr (setUp i s).bl s.phase hn
  rw [← requestTrace_eq_okTrace hp] at hx hplay
  rw [phaseAfter_eventList_take hp] at hplay
  rw [← setUp_phase i s, ← ha, ← hans] at hplay
  have hresume := resume_of_waiting (s := (setUp i s).accept i) rfl hplay rfl
  rw [exec_idle i s hb, serve_permitted hp, hresume, hx]
  simp only [State.played, State.accept, Useq.add, setUp_phase, hout, hlcd, hpanel, Nat.zero_add]

/-! ## The shape of the registers

`BlockInv` asks of an idle block that no request of the host is pending. Between two requests of a pseudo-instruction this
does not hold, so what an operation keeps is the shape without it. -/

/-- The shape of the registers, whatever the host has still to issue. -/
def Shape (s : State) : Prop := BlockInv { s with todo := [] }

theorem blockInv_of_shape {s : State} (h : Shape s) (ht : s.busy = false → s.todo = []) : BlockInv s :=
  ⟨fun hb => ⟨(h.1 hb).1, (h.1 hb).2.1, ht hb, (h.1 hb).2.2.2⟩, h.2⟩

theorem blockInv_of_busy {s : State} (h : Shape s) (hb : s.busy = true) : BlockInv s :=
  blockInv_of_shape h fun hidle => absurd (hidle.symm.trans hb) Bool.false_ne_true

theorem shape_of_blockInv {s : State} (h : BlockInv s) : Shape s :=
  ⟨fun hb => ⟨(h.1 hb).1, (h.1 hb).2.1, rfl, (h.1 hb).2.2.2⟩, h.2⟩

theorem todo_of_blockInv {s : State} (h : BlockInv s) (hb : s.busy = false) : s.todo = [] := (h.1 hb).2.2.1

/-- What `BlockInv` says of the registers of an operation that has completed `k` events. -/
structure Registers (s : State) (i : Instr) (k : Nat) : Prop where
  req : i.isRequest = true → s.req = requestWord i
  init : ∀ a, i = .init a → s.addr = a ∧ s.phase = initPhase k
  other : i.isInit = false →
    (i.isRequest = true → s.phase = .configured) ∧ (s.phase = .uninitialized ∨ s.phase = .configured)

theorem RestsIn.shape {s : State} {ph : Phase} (h : RestsIn s ph) (hph : ph = .uninitialized ∨ ph = .configured) :
    Shape s := by
  refine ⟨fun _ => ⟨h.useq, h.tx, rfl, h.phase.symm ▸ hph⟩, fun hb => ?_⟩
  exact absurd (h.busy.symm.trans hb) Bool.false_ne_true

theorem Shape.restsIn {s : State} (h : Shape s) (hb : s.busy = false) : RestsIn s s.phase := by
  obtain ⟨huseq, htx, -, -⟩ := h.1 hb
  exact ⟨hb, huseq, htx, rfl⟩

theorem Shape.phase {s : State} (h : Shape s) (hb : s.busy = false) : s.phase = .uninitialized ∨ s.phase = .configured :=
  (h.1 hb).2.2.2

theorem shape_of_waitsAt {s t : State} {i : Instr} {k : Nat} {w : BusWord} (h : WaitsAt s t i k w)
    (hkept : SameRegisters s t) (hr : Registers t i k) : Shape t := by
  refine ⟨fun hb => absurd (h.busy.symm.trans hb) (by decide), fun _ => ?_⟩
  obtain ⟨p, hevent⟩ := h.event
  have htx : t.tx = some ⟨t.addr, w.word t.bl⟩ := by rw [h.tx, hkept.addr, hkept.bl]
  exact ⟨i, k, w, p, h.useq, hevent, htx, hr.req, hr.init, hr.other⟩

theorem Shape.running {s : State} (h : Shape s) (hb : s.busy = true) :
    ∃ i k, s.useq = .running i k ∧ (eventList i).drop k ≠ [] ∧ Registers s i k := by
  obtain ⟨i, k, w, p, huseq, hevent, -, hreq, hinit, hother⟩ := h.2 hb
  obtain ⟨hk, -⟩ := List.getElem?_eq_some_iff.1 hevent
  exact ⟨i, k, huseq, fun hnil => absurd (List.drop_eq_nil_iff.1 hnil) (by omega), hreq, hinit, hother⟩

/-- R87: the phase after `n` more events of INIT. -/
theorem phaseAfter_initEvents_take_drop (k n : Nat) :
    phaseAfter (initPhase k) ((initEvents.drop k).take n) = initPhase (k + n) := by
  rw [← phaseAfter_initEvents k, ← phaseAfter_initEvents (k + n), List.take_add]
  exact List.foldl_append.symm

theorem phaseAfter_initEvents_drop (k : Nat) : phaseAfter (initPhase k) (initEvents.drop k) = .configured := by
  have hlength : (initEvents.drop k).length ≤ 63 := by rw [List.length_drop]; exact Nat.sub_le 63 k
  rw [← List.take_of_length_le hlength, phaseAfter_initEvents_take_drop, initPhase, if_neg (by omega), if_neg (by omega),
    if_neg (by omega)]

/-- What is said of the registers holds after `n` more events. -/
theorem Registers.later {s t : State} {i : Instr} {k n : Nat} (h : Registers s i k) (hreq : t.req = s.req)
    (haddr : t.addr = s.addr) (hphase : t.phase = phaseAfter s.phase (((eventList i).drop k).take n)) :
    Registers t i (k + n) := by
  refine ⟨fun hr => hreq.trans (h.req hr), fun a ha => ?_, fun hi => ?_⟩
  · subst ha
    obtain ⟨haddr', hphase'⟩ := h.init a rfl
    rw [hphase'] at hphase
    exact ⟨haddr.trans haddr', hphase.trans (phaseAfter_initEvents_take_drop k n)⟩
  · rw [hphase, phaseAfter_take_drop hi]
    exact h.other hi

theorem Registers.phase_done {s : State} {i : Instr} {k : Nat} (h : Registers s i k) :
    phaseAfter s.phase ((eventList i).drop k) = .uninitialized ∨
      phaseAfter s.phase ((eventList i).drop k) = .configured := by
  cases hi : i.isInit with
  | false => rw [phaseAfter_drop hi]; exact (h.other hi).2
  | true =>
    obtain ⟨a, rfl⟩ := exists_eq_init hi
    rw [(h.init a rfl).2]
    exact .inr (phaseAfter_initEvents_drop k)

theorem Registers.phase_failed {s : State} {i : Instr} {k : Nat} (h : Registers s i k) (n : Nat) :
    phaseFailed i (phaseAfter s.phase (((eventList i).drop k).take n)) = .uninitialized ∨
      phaseFailed i (phaseAfter s.phase (((eventList i).drop k).take n)) = .configured := by
  cases hi : i.isInit with
  | false => rw [phaseFailed_of_not_init hi, phaseAfter_take_drop hi]; exact (h.other hi).2
  | true =>
    obtain ⟨a, rfl⟩ := exists_eq_init hi
    exact .inl rfl

/-- An operation in progress keeps the shape: it waits at a bus write, or the sequencer rests. -/
theorem shape_resume_running {s : State} {i : Instr} {k : Nat} (hb : s.busy = true) (hu : s.useq = .running i k)
    (hl : (eventList i).drop k ≠ []) (hr : Registers s i k) : Shape s.resume := by
  have hkept := sameRegisters_resume s
  rcases resume_waits_or_rests hb hu hl with ⟨n, w, hwaits, hphase⟩ | hrests | ⟨n, hrests⟩
  · exact shape_of_waitsAt hwaits hkept (hr.later hwaits.req hkept.addr hphase)
  · exact hrests.shape hr.phase_done
  · exact hrests.shape (hr.phase_failed n)

theorem shape_resume_busy {s : State} (h : Shape s) (hb : s.busy = true) : Shape s.resume := by
  obtain ⟨i, k, hu, hl, hr⟩ := h.running hb
  exact shape_resume_running hb hu hl hr

/-- Every request but INIT is permitted in `Configured` only (R95, R158). -/
theorem phase_of_permitted {i : Instr} {s : State} (hp : permitted s i = true) (hi : i.isInit = false) :
    s.phase = .configured := by
  cases i with
  | init a => cases hi
  | clear | backlightOn | backlightOff => exact of_decide_eq_true hp
  | setCursor col row => exact of_decide_eq_true ((Bool.and_eq_true _ _).mp (permitted_setCursor col row s ▸ hp)).1
  | putc code => exact of_decide_eq_true ((Bool.and_eq_true _ _).mp hp).1
  | _ => cases hp

theorem registers_accept {i : Instr} {s : State} (hp : permitted s i = true) : Registers ((setUp i s).accept i) i 0 := by
  refine ⟨fun _ => rfl, fun a ha => ?_, fun hi => ?_⟩
  · subst ha
    exact ⟨rfl, of_decide_eq_true hp⟩
  · rw [State.accept_phase, setUp_phase, phase_of_permitted hp hi]
    exact ⟨fun _ => rfl, .inr rfl⟩

/-- A request, permitted or not, keeps the shape of an idle block. -/
theorem shape_request {i : Instr} (hr : i.isRequest = true) {s : State} (h : Shape s) (hb : s.busy = false) :
    Shape (acceptRequest i s).resume := by
  rw [← serve_request hr]
  cases hp : permitted s i with
  | false =>
    rw [serve_refused hr hp]
    exact RestsIn.shape ⟨rfl, rfl, rfl, rfl⟩ (h.phase hb)
  | true =>
    rw [serve_permitted hp]
    exact shape_resume_running rfl rfl (eventList_ne_nil_of_permitted hp) (registers_accept hp)

/-- So does whatever the host offers on the request port: a row that is no request is not accepted there. -/
theorem shape_offered (i : Instr) {s : State} (h : Shape s) (hb : s.busy = false) : Shape (acceptRequest i s).resume := by
  cases hr : i.isRequest with
  | true => exact shape_request hr h hb
  | false =>
    have hid : acceptRequest i s = s := by
      rw [acceptRequest_eq, hr, if_neg (fun hp => by rw [isRequest_of_permitted hp] at hr; cases hr)]
      rfl
    rw [hid, State.resume_idle s hb (h.restsIn hb).useq]
    exact h

theorem shape_emitted {i : Instr} (hp : i.isPseudo = false) (hr : i.isRequest = false) {s : State} (h : Shape s)
    (hb : s.busy = false) : Shape (s.begin i).resume := by
  have hnot {P : Prop} (h : i.isRequest = true) : P := absurd (hr.symm.trans h) Bool.false_ne_true
  exact shape_resume_running rfl rfl (eventList_ne_nil hp (by rintro w rfl; exact hnot rfl))
    ⟨hnot, by rintro a rfl; exact hnot rfl, fun _ => ⟨hnot, h.phase hb⟩⟩

/-- The host leaves nothing pending but where the block waits. -/
theorem blockInv_runTodo (l : List Instr) {s : State} (h : Shape s) (hb : s.busy = false) : BlockInv (runTodo l s) := by
  induction l generalizing s with
  | nil => exact h
  | cons i rest ih =>
    have hshape := shape_offered i h hb
    simp only [runTodo]
    split
    next hbusy => exact blockInv_of_busy (s := { (acceptRequest i s).resume with todo := rest }) hshape hbusy
    next hbusy =>
      split
      · exact ih hshape (Bool.eq_false_iff.2 hbusy)
      · exact hshape

theorem blockInv_carryOn {s : State} (h : BlockInv s) (hb : s.busy = true) : BlockInv s.carryOn := by
  have hshape := shape_resume_busy (shape_of_blockInv h) hb
  simp only [State.carryOn]
  split
  next hbusy => exact blockInv_of_busy hshape hbusy
  next hbusy =>
    split
    · exact blockInv_runTodo _ hshape (Bool.eq_false_iff.2 hbusy)
    · exact hshape

theorem blockInv_serve (i : Instr) {s : State} (h : BlockInv s) (hb : s.busy = false) : BlockInv (serve i s) := by
  have htodo := todo_of_blockInv h hb
  cases hp : i.isPseudo with
  | true => rw [serve_pseudo hp]; exact blockInv_runTodo _ (shape_of_blockInv h) hb
  | false =>
    cases hr : i.isRequest with
    | true =>
      refine blockInv_of_shape ?_ fun _ => (serve_todo hr s).trans htodo
      rw [serve_request hr]
      exact shape_request hr (shape_of_blockInv h) hb
    | false =>
      rw [serve_emitted hp hr]
      exact blockInv_of_shape (shape_emitted hp hr (shape_of_blockInv h) hb) fun _ =>
        (sameRegisters_resume (s.begin i)).todo.trans htodo

theorem blockInv_blockReset (s : State) : BlockInv s.blockReset :=
  ⟨fun _ => ⟨rfl, rfl, rfl, .inl rfl⟩, fun hb => by cases hb⟩

/-- A block takes an asynchronous input also while it waits, and every other when it is idle. -/
theorem Takes.blockInv {inp : Input} {f : State → State} (hf : Takes inp f) {s : State} (h : BlockInv s)
    (hb : s.busy = false ∨ inp.asynchronous = true) : BlockInv (f s) := by
  cases hf with
  | word => exact blockInv_serve _ h (hb.resolve_right Bool.false_ne_true)
  | print text col row => exact blockInv_serve _ h (hb.resolve_right Bool.false_ne_true)
  | teardown => exact blockInv_serve _ h (hb.resolve_right Bool.false_ne_true)
  | cut w k => exact blockInv_blockReset _
  | reset => exact blockInv_blockReset s
  | powerCycle => exact h
  | foreignWrite b => exact h
  | hostWait d => exact h

/-- Settles O47: by the cases of a step; an operation keeps the shape event by event (`shape_resume_running`). -/
theorem registerShapeIsKept : Obligations.RegisterShapeIsKept := by
  intro s t h hstep
  obtain ⟨f, hf, rfl⟩ := step_next_iff.1 hstep
  generalize hb : s.busy = b at hf
  generalize s.inputs = l at hf
  cases hf with
  | rest => exact h
  | take hf => exact hf.blockInv (s := { s with inputs := _ }) h (.inl hb)
  | interrupt ha hf => exact hf.blockInv (s := { s with inputs := _ }) h (.inr ha)
  | goOn ha => exact blockInv_carryOn h hb

end Sys2Proof.Machine

/-! # Placed words, and answers that come later -/

namespace Sys2Proof.Machine

open Sys2Proof.Spec

/-! ## The next input -/

/-- Settles O43: an idle block takes the next input, and an encoded row of the table is run as what it decodes to. -/
theorem stepRunsTheDecodedInstruction : Obligations.StepRunsTheDecodedInstruction := by
  intro s rest hb
  have take {inp : Input} (hs : s.inputs = inp :: rest) : step s = takeInput inp { s with inputs := rest } :=
    (step_idle hb).trans (stepIdle_cons hs)
  refine ⟨fun e i hs hd => ?_, fun text col row hs => take hs, fun hs => take hs, fun hs => ?_⟩
  · rw [take hs, takeInput, runEncoded, hd]
  · rw [step_idle hb, stepIdle_nil hs]

/-- A word of the table has an encoded form, and that decodes. -/
theorem exists_tableEncoded_of_decodeTableWord {nbits w : Nat} {i : Instr} (h : decodeTableWord nbits w = some i) :
    ∃ e, tableEncoded nbits w = some e ∧ decode e = .ok i := by
  unfold decodeTableWord at h
  split at h
  next e he =>
    refine ⟨e, he, ?_⟩
    cases hd : decode e with
    | error why => simp [hd, Except.toOption] at h
    | ok j => simpa [hd, Except.toOption] using h
  next => cases h

/-- Settles O44: the placed word is the next input of an idle block. -/
theorem placedTableWordRunsNext : Obligations.PlacedTableWordRunsNext := by
  intro s nbits w i h
  obtain ⟨e, he, hd⟩ := exists_tableEncoded_of_decodeTableWord h
  have hplaced : s.withFetchWord nbits w = s.withNextWord e := by rw [State.withFetchWord, he]
  rw [hplaced]
  exact (stepRunsTheDecodedInstruction (s.withNextWord e) s.inputs rfl).1 e i rfl hd

/-! ## What stands outside the block

The answers still to come and the requests the host has still to issue are no registers of the block: an operation uses the
former in order and leaves the latter. -/

/-- The state with other answers to come and other requests pending. -/
def State.outside (f : List (BitVec 2) → List (BitVec 2)) (g : List Instr → List Instr) (s : State) : State :=
  { s with answers := f s.answers, todo := g s.todo }

/-- More answers stand behind those to come. -/
def State.give (b : List (BitVec 2)) (s : State) : State := s.outside (· ++ b) id

@[simp] theorem State.give_busy (b : List (BitVec 2)) (s : State) : (s.give b).busy = s.busy := rfl
@[simp] theorem State.give_result (b : List (BitVec 2)) (s : State) : (s.give b).result = s.result := rfl
@[simp] theorem State.give_inputs (b : List (BitVec 2)) (s : State) : (s.give b).inputs = s.inputs := rfl
@[simp] theorem State.give_todo (b : List (BitVec 2)) (s : State) : (s.give b).todo = s.todo := rfl

theorem State.give_eq (b : List (BitVec 2)) {s : State} (h : s.answers = []) : s.give b = { s with answers := b } := by
  rw [State.give, State.outside, h]
  rfl

section
variable (f : List (BitVec 2) → List (BitVec 2)) (g : List Instr → List Instr)

theorem conclude_outside (st : Status) (s : State) : (s.outside f g).conclude st = (s.conclude st).outside f g := by
  cases hu : s.useq with
  | idle => simp [State.conclude, State.outside, hu]
  | running i k =>
    cases hr : i.isRequest with
    | true => rw [State.conclude_request st s i k hu hr, State.conclude_request st (s.outside f g) i k hu hr]; rfl
    | false =>
      rw [State.conclude_subOperation st s i k hu hr, State.conclude_subOperation st (s.outside f g) i k hu hr]; rfl

theorem busError_outside (st : Status) (s : State) : (s.outside f g).busError st = (s.busError st).outside f g :=
  conclude_outside f g st { s with phase := s.phaseAfterAbort }

/-- A play has already said which answers it leaves. -/
theorem afterPlay_outside (p : Play) (s : State) :
    (s.outside f g).afterPlay { p with rest := f p.rest } = (s.afterPlay p).outside f g := by
  cases hp : p.ending with
  | done => simp only [State.afterPlay, hp]; rfl
  | waiting x => simp only [State.afterPlay, hp]; rfl
  | failed st => simp only [State.afterPlay, hp]; exact busError_outside f g st (s.played p)

theorem finish_outside (s : State) : (s.outside f g).finish = s.finish.outside f g := by
  unfold State.finish
  split
  next h => rw [if_pos (c := (s.busy && s.tx.isNone) = true) h, conclude_outside]
  next h => rw [if_neg (c := (s.busy && s.tx.isNone) = true) h]

theorem acceptRequest_outside (i : Instr) (s : State) :
    acceptRequest i (s.outside f g) = (acceptRequest i s).outside f g := by
  have hp : permitted (s.outside f g) i = permitted s i := by cases i <;> rfl
  have hsetUp : (setUp i (s.outside f g)).accept i = ((setUp i s).accept i).outside f g := by cases i <;> rfl
  rw [acceptRequest_eq, acceptRequest_eq, hp, hsetUp]
  split
  · rfl
  · split <;> rfl

end

/-- `resume` plays the remaining events against the answers. -/
theorem resume_eq_play (s : State) :
    s.resume = (s.afterPlay (play s.addr s.bl s.phase s.remaining s.answers)).finish := by
  rw [State.resume, runEvents_eq_play]

theorem resume_setTodo (l : List Instr) (s : State) : { s with todo := l }.resume = { s.resume with todo := l } := by
  rw [resume_eq_play, resume_eq_play]
  exact (congrArg State.finish (afterPlay_outside id (fun _ => l) _ s)).trans (finish_outside id (fun _ => l) _)

/-- A play that does not run out of answers leaves those that come later. -/
theorem play_give {a : Byte} {bl : Bool} {ph : Phase} {l : List Micro} {as : List (BitVec 2)} (b : List (BitVec 2))
    (h : ∀ x, (play a bl ph l as).ending ≠ .waiting x) :
    play a bl ph l (as ++ b) = { play a bl ph l as with rest := (play a bl ph l as).rest ++ b } := by
  induction l generalizing ph as with
  | nil => rfl
  | cons m ms ih =>
    obtain ⟨ev, p⟩ := m
    cases ev with
    | wait t =>
      simp only [play] at h ⊢
      rw [ih h]
      rfl
    | write w =>
      cases as with
      | nil => exact absurd rfl (h (w.word bl))
      | cons c cs =>
        simp only [play, List.cons_append] at h ⊢
        cases hc : TxResult.ofCode c with
        | ok =>
          simp only [hc] at h ⊢
          rw [ih h]
          rfl
        | unreachable => rfl
        | ioFailure => rfl

theorem resume_give_of_not_waiting {s : State} (b : List (BitVec 2))
    (h : ∀ x, (play s.addr s.bl s.phase s.remaining s.answers).ending ≠ .waiting x) :
    (s.give b).resume = s.resume.give b := by
  have hplay : play s.addr s.bl s.phase s.remaining (s.answers ++ b) = _ := play_give b h
  rw [resume_eq_play, resume_eq_play]
  show ((s.give b).afterPlay (play s.addr s.bl s.phase s.remaining (s.answers ++ b))).finish = _
  rw [hplay]
  exact (congrArg State.finish (afterPlay_outside (· ++ b) id _ s)).trans (finish_outside (· ++ b) id _)

/-! ## Going on where the answers ran out -/

/-- A play that goes on after another. -/
def Play.andThen (p q : Play) : Play := ⟨p.out ++ q.out, q.rest, p.count + q.count, q.phase, q.ending⟩

theorem played_andThen (p q : Play) (s : State) : (s.played p).played q = s.played (p.andThen q) := by
  have hu : (s.useq.add p.count).add q.count = s.useq.add (p.count + q.count) := by
    cases s.useq <;> simp [Useq.add, Nat.add_assoc]
  have ht : (if q.count = 0 then (if p.count = 0 then s.tx else none) else none) =
      if p.count + q.count = 0 then s.tx else none := by
    by_cases hq : q.count = 0 <;> simp [hq]
  simp only [State.played, Play.andThen, hu, ht, Display.observeAll_append, Display.followAll_append, List.append_assoc]
  rfl

theorem afterPlay_andThen (p q : Play) (s : State) : (s.played p).afterPlay q = s.afterPlay (p.andThen q) := by
  have hending : (p.andThen q).ending = q.ending := rfl
  simp only [State.afterPlay, hending, played_andThen]
  rfl

/-- An operation in progress has events left; otherwise nothing runs. -/
inductive Sequenced (s : State) : Prop
  | running {i : Instr} {k : Nat} (busy : s.busy = true) (useq : s.useq = .running i k) (left : (eventList i).drop k ≠ [])
  | atRest (busy : s.busy = false) (useq : s.useq = .idle)

theorem Sequenced.resume_eq {s : State} (h : Sequenced s) (hb : s.busy = false) : s.resume = s := by
  cases h with
  | running busy => exact absurd (hb.symm.trans busy) Bool.false_ne_true
  | atRest busy useq => exact s.resume_idle busy useq

theorem Sequenced.give {s : State} (h : Sequenced s) (b : List (BitVec 2)) : Sequenced (s.give b) := by
  cases h with
  | running busy useq left => exact .running busy useq left
  | atRest busy useq => exact .atRest busy useq

theorem RestsIn.sequenced {s : State} {ph : Phase} (h : RestsIn s ph) : Sequenced s := .atRest h.busy h.useq

theorem sequenced_resume {s : State} (h : Sequenced s) : Sequenced s.resume := by
  cases h with
  | running busy useq left =>
    rcases resume_waits_or_rests busy useq left with ⟨n, w, hwaits, -⟩ | hrests | ⟨n, hrests⟩
    · obtain ⟨p, hevent⟩ := hwaits.event
      obtain ⟨hk, -⟩ := List.getElem?_eq_some_iff.1 hevent
      exact .running hwaits.busy hwaits.useq fun hnil => absurd (List.drop_eq_nil_iff.1 hnil) (by omega)
    · exact hrests.sequenced
    · exact hrests.sequenced
  | atRest busy useq =>
    rw [s.resume_idle busy useq]
    exact .atRest busy useq

/-- A write held on the port is written again: only its answer counts. -/
theorem resume_setTx {s : State} {i : Instr} {k : Nat} (hu : s.useq = .running i k) (hl : s.remaining ≠ [])
    (x : Option TxWrite) : { s with tx := x }.resume = s.resume := by
  rw [resume_eq_play, resume_eq_play]
  show (State.afterPlay (play s.addr s.bl s.phase s.remaining s.answers) { s with tx := x }).finish = _
  have hdone := play_done s.addr s.bl s.phase s.remaining s.answers
  generalize play s.addr s.bl s.phase s.remaining s.answers = p at *
  cases he : p.ending with
  | done =>
    have hcount : p.count ≠ 0 := by
      rw [hdone he]
      exact fun h => hl (List.length_eq_zero_iff.1 h)
    simp only [State.afterPlay, he, State.played, hcount, if_false]
  | waiting w => simp only [State.afterPlay, he]; rfl
  | failed st =>
    have hplayed : (s.played p).useq = .running i (k + p.count) := by rw [State.played, hu]; rfl
    simp only [State.afterPlay, he]
    rw [← State.busError_tx st (s.played p) (if p.count = 0 then x else none) i _ hplayed]
    rfl

theorem remaining_played (p : Play) (s : State) : (s.played p).remaining = s.remaining.drop p.count := by
  cases hu : s.useq with
  | idle => simp [State.remaining, State.played, hu, Useq.add]
  | running i k => simp [State.remaining, State.played, hu, Useq.add, List.drop_drop]

/-- The rest of the events is played against the answers left. -/
theorem resume_played (p : Play) (s : State) :
    (s.played p).resume =
      (s.afterPlay (p.andThen (play s.addr s.bl p.phase (s.remaining.drop p.count) p.rest))).finish := by
  rw [resume_eq_play, remaining_played, afterPlay_andThen]
  rfl

theorem resume_of_play_waiting {s : State} {x : Byte}
    (he : (play s.addr s.bl s.phase s.remaining s.answers).ending = .waiting x) :
    s.resume = { s.played (play s.addr s.bl s.phase s.remaining s.answers) with tx := some ⟨s.addr, x⟩ } := by
  rw [resume_eq_play, State.afterPlay, he]
  exact State.finish_waiting _ _ rfl

/-- Without an answer for its next write an operation has used all answers, and goes on from there. -/
theorem resume_give_of_waiting {s : State} {i : Instr} {k : Nat} (hu : s.useq = .running i k) {x : Byte}
    (he : (play s.addr s.bl s.phase s.remaining s.answers).ending = .waiting x) (b : List (BitVec 2)) :
    (s.resume.give b).resume = (s.give b).resume := by
  have hresume := resume_of_play_waiting he
  obtain ⟨⟨w, q, hevent, -⟩, hrest, hlater⟩ := play_waiting s.addr s.bl s.phase s.remaining s.answers x he
  specialize hlater b
  generalize play s.addr s.bl s.phase s.remaining s.answers = p at *
  have hpaused : s.resume.give b = { s.played { p with rest := b } with tx := some ⟨s.addr, x⟩ } := by
    rw [hresume, State.give, State.outside]
    simp only [State.played, hrest, List.nil_append, id]
  have huseq : (s.played { p with rest := b }).useq = .running i (k + p.count) := by rw [State.played, hu]; rfl
  have hleft : (s.played { p with rest := b }).remaining ≠ [] := by
    obtain ⟨hlt, -⟩ := List.getElem?_eq_some_iff.1 hevent
    rw [remaining_played]
    exact fun hnil => absurd (List.drop_eq_nil_iff.1 hnil) (Nat.not_le.2 hlt)
  calc (s.resume.give b).resume
      = (s.played { p with rest := b }).resume := by rw [hpaused, resume_setTx huseq hleft]
    _ = (s.afterPlay (p.andThen (play s.addr s.bl p.phase (s.remaining.drop p.count) b))).finish :=
        resume_played { p with rest := b } s
    _ = (s.afterPlay (play s.addr s.bl s.phase s.remaining (s.answers ++ b))).finish := by rw [hlater]; rfl
    _ = (s.give b).resume := (resume_eq_play (s.give b)).symm

/-- An operation in progress waits for an answer or ends. -/
theorem resume_ends {s : State} {i : Instr} {k : Nat} (hb : s.busy = true) (hu : s.useq = .running i k)
    (hl : (eventList i).drop k ≠ []) :
    (∃ x, (play s.addr s.bl s.phase s.remaining s.answers).ending = .waiting x) ∨
    (∀ x, (play s.addr s.bl s.phase s.remaining s.answers).ending ≠ .waiting x) ∧ s.resume.busy = false := by
  have hr : s.remaining = (eventList i).drop k := by rw [State.remaining, hu]
  have hcases := s.resume_cases i k hb hu hl
  rw [hr]
  generalize play s.addr s.bl s.phase ((eventList i).drop k) s.answers = p at *
  have hplayed : (s.played p).useq = .running i (k + p.count) := by rw [State.played, hu]; rfl
  rcases hcases with ⟨x, he, -⟩ | ⟨he, h⟩ | ⟨st, he, h⟩
  · exact .inl ⟨x, he⟩
  · exact .inr ⟨by simp [he], by rw [h]; exact (restsIn_conclude .ok hplayed).busy⟩
  · exact .inr ⟨by simp [he], by rw [h]; exact (restsIn_busError st hplayed).busy⟩

/-- A block that waits has used all answers. -/
theorem resume_answers {s : State} (h : Sequenced s) (hw : s.resume.busy = true) : s.resume.answers = [] := by
  cases h with
  | atRest busy useq =>
    rw [s.resume_idle busy useq, busy] at hw
    cases hw
  | running busy useq left =>
    rcases resume_ends busy useq left with ⟨x, he⟩ | ⟨-, hbusy⟩
    · rw [resume_of_play_waiting he]
      exact (play_waiting _ _ _ _ _ x he).2.1
    · rw [hbusy] at hw
      cases hw

/-- What a waiting operation makes of answers that come later is what it makes of them all at once (R46, R74). -/
theorem resume_give {s : State} (h : Sequenced s) (b : List (BitVec 2)) :
    (s.resume.give b).resume = (s.give b).resume := by
  have hresumed := sequenced_resume h
  cases h with
  | atRest busy useq => rw [s.resume_idle busy useq]
  | running busy useq left =>
    rcases resume_ends busy useq left with ⟨x, he⟩ | ⟨hnot, hbusy⟩
    · exact resume_give_of_waiting useq he b
    · rw [resume_give_of_not_waiting b hnot]
      exact (hresumed.give b).resume_eq hbusy

/-! ## A row -/

/-- The block as it starts a row that is no pseudo-instruction. -/
def startRow (i : Instr) (s : State) : State := if i.isRequest then acceptRequest i s else s.begin i

theorem serve_eq_resume_startRow {i : Instr} (hp : i.isPseudo = false) (s : State) : serve i s = (startRow i s).resume := by
  unfold startRow
  split
  next hr => exact serve_request hr s
  next hr => exact serve_emitted hp (Bool.eq_false_iff.2 hr) s

theorem sequenced_startRow {i : Instr} (hp : i.isPseudo = false) (s : State) : Sequenced (startRow i s) := by
  unfold startRow
  split
  next hr =>
    cases hpermitted : permitted s i with
    | true =>
      rw [acceptRequest_permitted hpermitted]
      exact .running rfl rfl (eventList_ne_nil_of_permitted hpermitted)
    | false =>
      rw [acceptRequest_refused hr hpermitted]
      exact .atRest rfl rfl
  next hr => exact .running rfl rfl (eventList_ne_nil hp (by rintro w rfl; exact hr rfl))

theorem startRow_outside (f : List (BitVec 2) → List (BitVec 2)) (g : List Instr → List Instr) (i : Instr) (s : State) :
    startRow i (s.outside f g) = (startRow i s).outside f g := by
  unfold startRow
  split
  · exact acceptRequest_outside f g i s
  · rfl

section
variable {i : Instr} (hp : i.isPseudo = false) (s : State)
include hp

theorem sequenced_serve : Sequenced (serve i s) := by
  rw [serve_eq_resume_startRow hp]
  exact sequenced_resume (sequenced_startRow hp s)

theorem serve_give (b : List (BitVec 2)) : ((serve i s).give b).resume = serve i (s.give b) := by
  rw [serve_eq_resume_startRow hp, serve_eq_resume_startRow hp, resume_give (sequenced_startRow hp s)]
  exact congrArg State.resume (startRow_outside (· ++ b) id i s).symm

theorem serve_setTodo (l : List Instr) : serve i { s with todo := l } = { serve i s with todo := l } := by
  rw [serve_eq_resume_startRow hp, serve_eq_resume_startRow hp, ← resume_setTodo]
  exact congrArg State.resume (startRow_outside id (fun _ => l) i s)

theorem serve_todo_of_not_pseudo : (serve i s).todo = s.todo := by
  cases hr : i.isRequest with
  | true => exact serve_todo hr s
  | false => rw [serve_emitted hp hr]; exact (sameRegisters_resume _).todo

theorem serve_answers (hw : (serve i s).busy = true) : (serve i s).answers = [] := by
  rw [serve_eq_resume_startRow hp] at hw ⊢
  exact resume_answers (sequenced_startRow hp s) hw

end

/-! ## A pseudo-instruction -/

/-- What the host does when a request has ended (R106, R115). -/
def State.hostNext (l : List Instr) (s : State) : State :=
  if s.result = some .ok then runTodo l s else { s with todo := [] }

theorem carryOn_eq_hostNext (s : State) :
    s.carryOn = if s.resume.busy then s.resume else s.resume.hostNext s.resume.todo := rfl

theorem runTodo_cons {i : Instr} (hi : i.isRequest = true) (rest : List Instr) (s : State) :
    runTodo (i :: rest) s = if (serve i s).busy then { serve i s with todo := rest } else (serve i s).hostNext rest := by
  rw [serve_request hi]
  rfl

/-- What the host had pending before is of no account. -/
theorem runTodo_setTodo {l : List Instr} (hl : ∀ i ∈ l, i.isRequest = true) (l' : List Instr) (s : State) :
    runTodo l { s with todo := l' } = runTodo l s := by
  induction l generalizing s with
  | nil => rfl
  | cons i rest ih =>
    have hi := hl i List.mem_cons_self
    rw [runTodo_cons hi, runTodo_cons hi, serve_setTodo (isPseudo_of_isRequest hi), State.hostNext, State.hostNext,
      ih fun j hj => hl j (List.mem_cons_of_mem i hj)]

theorem hostNext_setTodo {l : List Instr} (hl : ∀ i ∈ l, i.isRequest = true) (l' : List Instr) (s : State) :
    { s with todo := l' }.hostNext l = s.hostNext l := by
  rw [State.hostNext, State.hostNext, runTodo_setTodo hl]

/-- A host that waits goes on only with an operation that waits, or after a request that ended with Ok. -/
theorem hostNext_busy {l : List Instr} {s : State} (hb : s.busy = false) (hw : (s.hostNext l).busy = true) :
    s.result = some .ok := by
  by_contra hresult
  rw [State.hostNext, if_neg hresult, hb] at hw
  cases hw

theorem runTodo_answers {l : List Instr} (hl : ∀ i ∈ l, i.isRequest = true) {s : State} (hb : s.busy = false)
    (hw : (runTodo l s).busy = true) : (runTodo l s).answers = [] := by
  induction l generalizing s with
  | nil => exact absurd (hb.symm.trans hw) Bool.false_ne_true
  | cons i rest ih =>
    have hi := hl i List.mem_cons_self
    rw [runTodo_cons hi] at hw ⊢
    split
    next hbusy => exact serve_answers (isPseudo_of_isRequest hi) s hbusy
    next hbusy =>
      rw [if_neg hbusy] at hw
      have hresult := hostNext_busy (Bool.eq_false_iff.2 hbusy) hw
      rw [State.hostNext, if_pos hresult] at hw ⊢
      exact ih (fun j hj => hl j (List.mem_cons_of_mem i hj)) (Bool.eq_false_iff.2 hbusy) hw

/-- Requests that the host has issued up to an unanswered write go on as with all answers at once. -/
theorem carryOn_runTodo_give {l : List Instr} (hl : ∀ i ∈ l, i.isRequest = true) (b : List (BitVec 2)) {s : State}
    (hb : s.busy = false) (hw : (runTodo l s).busy = true) :
    ((runTodo l s).give b).carryOn = runTodo l (s.give b) := by
  induction l generalizing s with
  | nil => exact absurd (hb.symm.trans hw) Bool.false_ne_true
  | cons i rest ih =>
    have hi := hl i List.mem_cons_self
    have hrest : ∀ j ∈ rest, j.isRequest = true := fun j hj => hl j (List.mem_cons_of_mem i hj)
    have hserve := serve_give (isPseudo_of_isRequest hi) s b
    rw [runTodo_cons hi] at hw
    rw [runTodo_cons hi, runTodo_cons hi, ← hserve]
    split
    next hbusy =>
      have hresume : ({ serve i s with todo := rest }.give b).resume = { ((serve i s).give b).resume with todo := rest } :=
        resume_setTodo rest ((serve i s).give b)
      rw [carryOn_eq_hostNext, hresume, hostNext_setTodo hrest]
    next hbusy =>
      have hidle : (serve i s).busy = false := Bool.eq_false_iff.2 hbusy
      rw [if_neg hbusy] at hw
      have hresult := hostNext_busy hidle hw
      rw [State.hostNext, if_pos hresult] at hw ⊢
      have hstays : ((serve i s).give b).resume = (serve i s).give b :=
        ((sequenced_serve (isPseudo_of_isRequest hi) s).give b).resume_eq hidle
      rw [hstays, State.give_busy, if_neg hbusy, State.hostNext, State.give_result, if_pos hresult]
      exact ih hrest hidle hw

/-! ## Every row -/

/-- With nothing pending the host does nothing after an operation. -/
theorem carryOn_eq_resume {s : State} (ht : s.todo = []) : s.carryOn = s.resume := by
  have htodo : s.resume.todo = [] := (sameRegisters_resume s).todo.trans ht
  have hstop : { s.resume with todo := [] } = s.resume := by rw [← htodo]
  rw [carryOn_eq_hostNext, htodo, State.hostNext, runTodo, hstop, ite_self, ite_self]

theorem serve_answers_of_busy (i : Instr) {s : State} (hb : s.busy = false) (hw : (serve i s).busy = true) :
    (serve i s).answers = [] := by
  cases hp : i.isPseudo with
  | true =>
    rw [serve_pseudo hp] at hw ⊢
    exact runTodo_answers (fun j hj => isRequest_of_mem_expand hp hj) hb hw
  | false => exact serve_answers hp s hw

theorem carryOn_serve_give (i : Instr) (b : List (BitVec 2)) {s : State} (hb : s.busy = false) (ht : s.todo = [])
    (hw : (serve i s).busy = true) : ((serve i s).give b).carryOn = serve i (s.give b) := by
  cases hp : i.isPseudo with
  | true =>
    rw [serve_pseudo hp] at hw ⊢
    rw [serve_pseudo hp]
    exact carryOn_runTodo_give (fun j hj => isRequest_of_mem_expand hp hj) b hb hw
  | false =>
    have htodo : ((serve i s).give b).todo = [] := by
      rw [State.give_todo, serve_todo_of_not_pseudo hp, ht]
    rw [carryOn_eq_resume htodo, serve_give hp]

/-- A block that waits has used all answers, so that the answers it is given are those that come later. -/
theorem step_serve_later (i : Instr) (b : List (BitVec 2)) {s : State} (hb : s.busy = false) (hinputs : s.inputs = [])
    (htodo : s.todo = []) (hw : (serve i s).busy = true) :
    step { serve i s with answers := b } = .next (serve i (s.give b)) := by
  have hnone : (serve i s).inputs = [] := (grown_serve i s).inputs.trans hinputs
  rw [← State.give_eq b (serve_answers_of_busy i hb hw), step_busy (s := (serve i s).give b) hw,
    stepBusy_eq_carryOn (by simp [hnone]), carryOn_serve_give i b hb htodo hw]

/-- Settles O26: the operation that waits (`resume_give`), and after it the host (`carryOn_runTodo_give`), go on as with all
answers at once. -/
theorem answersMayComeLater : Obligations.AnswersMayComeLater := by
  intro i s t a b hb hinputs htodo hexec hw
  rw [exec_idle i { s with answers := a } hb] at hexec
  cases hexec
  rw [exec_idle i { s with answers := a ++ b } hb]
  exact step_serve_later i b (s := { s with answers := a }) hb hinputs htodo hw

end Sys2Proof.Machine

/-! # The encodings

A request word is taken apart into its three bytes (`eq_packRequest`), on which masks act one by one; the decoder in the words
of R72 is `decodeRequest_packRequest`. -/

namespace Sys2Proof.Machine

open Sys2Proof.Spec

/-! ## Request words by their fields -/

@[simp] theorem opField_packRequest (op a b : Byte) : opField (packRequest op a b) = op := by
  rw [opField, packRequest, BitVec.extractLsb'_append_eq_of_le (by decide)]
  exact BitVec.extractLsb'_append_eq_left

@[simp] theorem aField_packRequest (op a b : Byte) : aField (packRequest op a b) = a := by
  rw [aField, packRequest, BitVec.extractLsb'_append_eq_of_le (by decide)]
  exact BitVec.extractLsb'_append_eq_right

@[simp] theorem bField_packRequest (op a b : Byte) : bField (packRequest op a b) = b :=
  BitVec.extractLsb'_append_eq_right

/-- R51: a request word is its three fields. -/
theorem eq_packRequest (w : BitVec 24) : w = packRequest (opField w) (aField w) (bField w) := by
  have hops : opField w ++ aField w = w.extractLsb' 8 16 := BitVec.extractLsb'_append_extractLsb'_eq_extractLsb' rfl
  rw [packRequest, hops]
  exact (BitVec.extractLsb'_append_extractLsb' (w := 16) (len := 8)).symm

theorem packRequest_inj {op a b op' a' b' : Byte} :
    packRequest op a b = packRequest op' a' b' ↔ op = op' ∧ a = a' ∧ b = b' := by
  constructor
  · intro h
    exact ⟨by simpa using congrArg opField h, by simpa using congrArg aField h, by simpa using congrArg bField h⟩
  · rintro ⟨rfl, rfl, rfl⟩
    rfl

/-- A pattern selects a word where it selects each of its fields. -/
theorem selects_packRequest (opMask aMask bMask opValue aValue bValue op a b : Byte) :
    RequestPattern.selects ⟨packRequest opMask aMask bMask, packRequest opValue aValue bValue⟩ (packRequest op a b) = true ↔
      op &&& opMask = opValue ∧ a &&& aMask = aValue ∧ b &&& bMask = bValue := by
  have hand : packRequest op a b &&& packRequest opMask aMask bMask =
      packRequest (op &&& opMask) (a &&& aMask) (b &&& bMask) := by
    rw [packRequest, packRequest, BitVec.and_append, BitVec.and_append, packRequest]
  rw [RequestPattern.selects, beq_iff_eq, hand, packRequest_inj]

section

variable (op a b : Byte)

/-- A mask takes a field whole or not at all. -/
theorem and_0xFF (x : Byte) : x &&& 0xFF#8 = x := BitVec.and_allOnes

theorem patInit_selects : patInit.selects (packRequest op a b) = true ↔ op = 1 ∧ b = 0 :=
  (selects_packRequest 0xFF 0 0xFF 1 0 0 op a b).trans (by simp [and_0xFF])

theorem patClear_selects : patClear.selects (packRequest op a b) = true ↔ op = 2 ∧ a = 0 ∧ b = 0 :=
  (selects_packRequest 0xFF 0xFF 0xFF 2 0 0 op a b).trans (by simp [and_0xFF])

theorem patSetCursor_selects : patSetCursor.selects (packRequest op a b) = true ↔ op = 3 :=
  (selects_packRequest 0xFF 0 0 3 0 0 op a b).trans (by simp [and_0xFF])

theorem patPutc_selects : patPutc.selects (packRequest op a b) = true ↔ op = 4 ∧ b = 0 :=
  (selects_packRequest 0xFF 0 0xFF 4 0 0 op a b).trans (by simp [and_0xFF])

theorem patBacklightOn_selects : patBacklightOn.selects (packRequest op a b) = true ↔ op = 5 ∧ a = 0 ∧ b = 0 :=
  (selects_packRequest 0xFF 0xFF 0xFF 5 0 0 op a b).trans (by simp [and_0xFF])

theorem patBacklightOff_selects : patBacklightOff.selects (packRequest op a b) = true ↔ op = 6 ∧ a = 0 ∧ b = 0 :=
  (selects_packRequest 0xFF 0xFF 0xFF 6 0 0 op a b).trans (by simp [and_0xFF])

/-- R72 by the fields of the word: the operation of R53 where its reserved fields are zero, and reserved otherwise. -/
theorem decodeRequest_packRequest :
    decodeRequest (packRequest op a b) =
      if op = 1 ∧ b = 0 then .init a
      else if op = 2 ∧ a = 0 ∧ b = 0 then .clear
      else if op = 3 then .setCursor a b
      else if op = 4 ∧ b = 0 then .putc a
      else if op = 5 ∧ a = 0 ∧ b = 0 then .backlightOn
      else if op = 6 ∧ a = 0 ∧ b = 0 then .backlightOff
      else .reserved (packRequest op a b) := by
  simp only [decodeRequest, patInit_selects, patClear_selects, patSetCursor_selects, patPutc_selects, patBacklightOn_selects,
    patBacklightOff_selects, aField_packRequest, bField_packRequest]

/-- R63, R64 by the fields of the word. -/
theorem wellFormed_reserved_packRequest :
    (Instr.reserved (packRequest op a b)).wellFormed = true ↔
      op = 0 ∨ 7 ≤ op.toNat ∨ op = 1 ∧ b ≠ 0 ∨ op = 2 ∧ (a ≠ 0 ∨ b ≠ 0) ∨ op = 4 ∧ b ≠ 0 ∨ op = 5 ∧ (a ≠ 0 ∨ b ≠ 0) ∨
        op = 6 ∧ (a ≠ 0 ∨ b ≠ 0) := by
  have hop : (packRequest op a b).extractLsb' 16 8 = op := opField_packRequest op a b
  have ha : (packRequest op a b).extractLsb' 8 8 = a := aField_packRequest op a b
  have hb : (packRequest op a b).extractLsb' 0 8 = b := bField_packRequest op a b
  rw [Instr.wellFormed, reservedOp, reservedField, hop, ha, hb]
  simp [BitVec.toNat_eq, or_assoc]

end

/-- The numbers of R53, and those that R63 reserves. -/
theorem op_cases (op : Byte) : op = 0 ∨ op = 1 ∨ op = 2 ∨ op = 3 ∨ op = 4 ∨ op = 5 ∨ op = 6 ∨ 7 ≤ op.toNat := by
  bv_omega

/-- Decoding finds what R63 and R64 reserve. -/
theorem decodeRequest_eq_reserved_iff (w : BitVec 24) :
    decodeRequest w = .reserved w ↔ (Instr.reserved w).wellFormed = true := by
  rw [eq_packRequest w, decodeRequest_packRequest, wellFormed_reserved_packRequest]
  generalize opField w = op, aField w = a, bField w = b
  rcases op_cases op with rfl | rfl | rfl | rfl | rfl | rfl | rfl | hop
  case inr.inr.inr.inr.inr.inr.inr =>
    have hne (k : Byte) (hk : k.toNat < 7) : op ≠ k := by rintro rfl; omega
    simp [hop, hne]
  all_goals simp [imp_iff_not_or]

/-- R65: the decoder gives no other row. -/
theorem isRequest_decodeRequest (w : BitVec 24) : (decodeRequest w).isRequest = true := by
  rw [decodeRequest]
  split_ifs <;> rfl

/-- No bit of the word is lost: each branch has tested the fields it drops. -/
theorem requestWord_decodeRequest (w : BitVec 24) : requestWord (decodeRequest w) = w := by
  rw [eq_packRequest w, decodeRequest_packRequest]
  generalize opField w = op, aField w = a, bField w = b
  split_ifs with hinit hclear hcursor hputc hon hoff
  · obtain ⟨rfl, rfl⟩ := hinit; rfl
  · obtain ⟨rfl, rfl, rfl⟩ := hclear; rfl
  · obtain rfl := hcursor; rfl
  · obtain ⟨rfl, rfl⟩ := hputc; rfl
  · obtain ⟨rfl, rfl, rfl⟩ := hon; rfl
  · obtain ⟨rfl, rfl, rfl⟩ := hoff; rfl
  · rfl

/-- Only the reserved row has an operand that can be wrong, and decoding gives it only to words that are reserved. -/
theorem wellFormed_decodeRequest (w : BitVec 24) : (decodeRequest w).wellFormed = true := by
  have hword := requestWord_decodeRequest w
  have hreserved := (decodeRequest_eq_reserved_iff w).1
  generalize decodeRequest w = i at *
  cases i with
  | reserved v =>
    obtain rfl : v = w := hword
    exact hreserved rfl
  | _ => rfl

/-- Settles O2: a word is its three fields, and each branch of the decoder gives the fields back. -/
theorem everyRequestWordIsReadWhole : Obligations.EveryRequestWordIsReadWhole := fun w =>
  ⟨isRequest_decodeRequest w, wellFormed_decodeRequest w, requestWord_decodeRequest w⟩

/-- Decoding gives a well-formed request back from its word. -/
theorem decodeRequest_requestWord {i : Instr} (hr : i.isRequest = true) (hw : i.wellFormed = true) :
    decodeRequest (requestWord i) = i := by
  cases i with
  | reserved w => exact (decodeRequest_eq_reserved_iff w).2 hw
  | init _ | clear | setCursor _ _ | putc _ | backlightOn | backlightOff =>
    rw [requestWord, decodeRequest_packRequest]
    rfl
  | _ => cases hr

/-! ## The request patterns -/

/-- The patterns of the table's six requests. -/
def requestPatterns : List RequestPattern :=
  [patInit, patClear, patSetCursor, patPutc, patBacklightOn, patBacklightOff]

/-- Every pattern fixes the whole of `op`. -/
theorem opField_of_selects {p : RequestPattern} (hp : p ∈ requestPatterns) {w : BitVec 24} (h : p.selects w = true) :
    opField w = opField p.value := by
  have hmask : opField p.mask = 0xFF#8 := by
    have hall : ∀ p ∈ requestPatterns, opField p.mask = 0xFF#8 := by decide
    exact hall p hp
  have hword : w &&& p.mask = p.value := by simpa [RequestPattern.selects] using h
  calc opField w = opField w &&& opField p.mask := by rw [hmask, and_0xFF]
    _ = opField (w &&& p.mask) := BitVec.extractLsb'_and.symm
    _ = opField p.value := by rw [hword]

/-- R72: the patterns are pairwise disjoint, for their `op` values differ. -/
theorem countP_requestPatterns_le_one (w : BitVec 24) : requestPatterns.countP (·.selects w) ≤ 1 :=
  calc requestPatterns.countP (·.selects w)
      ≤ requestPatterns.countP ((· == opField w) ∘ fun p => opField p.value) :=
        List.countP_mono_left fun p hp h => by simp [opField_of_selects hp h]
    _ = (requestPatterns.map fun p => opField p.value).count (opField w) := by
        rw [List.count_eq_countP, List.countP_map]
    _ ≤ 1 := List.nodup_iff_count_le_one.1 (by decide) _

theorem decodeRequest_of_no_pattern {w : BitVec 24} (h : requestPatterns.countP (·.selects w) = 0) :
    decodeRequest w = .reserved w := by
  have hnone := List.countP_eq_zero.1 h
  simp only [requestPatterns, List.forall_mem_cons] at hnone
  simp [decodeRequest, hnone]

/-- Settles O3: the procedure is `decodeRequest_packRequest` on the fields of the word; two patterns that select it share its
`op`. -/
theorem requestsDecodeByTheProcedure : Obligations.RequestsDecodeByTheProcedure := by
  intro w op a b hop ha hb
  obtain rfl : a = aField w := ha
  obtain rfl : b = bField w := hb
  have hdecode := decodeRequest_packRequest (opField w) (aField w) (bField w)
  rw [← eq_packRequest w] at hdecode
  have hfield {k : Byte} (h : op = k.toNat) : opField w = k := BitVec.eq_of_toNat_eq (hop.symm.trans h)
  refine ⟨fun h => ?_, fun h => ?_, fun h => ?_, fun h => ?_, fun h => ?_, fun h => ?_, fun h => ?_,
    countP_requestPatterns_le_one w, decodeRequest_of_no_pattern⟩
  · refine (decodeRequest_eq_reserved_iff w).2 ?_
    simpa [Instr.wellFormed, reservedOp, ← hop] using .inl h
  · simpa [hfield (k := 1) h] using hdecode
  · simpa [hfield (k := 2) h] using hdecode
  · simpa [hfield (k := 3) h] using hdecode
  · simpa [hfield (k := 4) h] using hdecode
  · simpa [hfield (k := 5) h] using hdecode
  · simpa [hfield (k := 6) h] using hdecode

/-- Settles O1: the decoder by evaluation. -/
theorem sampleRequestWordsDecode : Obligations.SampleRequestWordsDecode :=
  ⟨rfl, rfl, rfl, rfl, rfl, rfl, rfl, rfl⟩

/-! ## Emitted values by their fields -/

/-- The control bits of a write word, R55. -/
def controlBits (blb e rs : Bool) : Byte := bitAt blb Config.blMask ||| bitAt e Config.enMask ||| bitAt rs Config.rsMask

theorem packWriteWord_eq_or (d : BitVec 4) (blb e rs : Bool) :
    packWriteWord d blb e rs = (d ++ 0#4) ||| controlBits blb e rs := by
  rw [packWriteWord, controlBits, BitVec.or_assoc, BitVec.or_assoc, BitVec.or_assoc]

/-- R55: the masks put the control bits in places 3, 2 and 0. -/
theorem controlBits_eq_append (blb e rs : Bool) :
    controlBits blb e rs = 0#4 ++ (BitVec.ofBool blb ++ BitVec.ofBool e ++ 0#1 ++ BitVec.ofBool rs) := by
  revert blb e rs
  decide

/-- R55 in the bits of the word. -/
theorem packWriteWord_eq_append (d : BitVec 4) (blb e rs : Bool) :
    packWriteWord d blb e rs = d ++ BitVec.ofBool blb ++ BitVec.ofBool e ++ 0#1 ++ BitVec.ofBool rs := by
  rw [packWriteWord_eq_or, controlBits_eq_append, BitVec.or_append, BitVec.or_zero, BitVec.zero_or,
    BitVec.append_assoc' (x₁ := d), BitVec.append_assoc' (x₁ := d), BitVec.append_assoc' (x₁ := d)]
  rfl

/-- No control bit falls on the data nibble. -/
theorem dataNibble_packWriteWord (d : BitVec 4) (blb e rs : Bool) : dataNibble (packWriteWord d blb e rs) = d := by
  rw [packWriteWord_eq_or, controlBits_eq_append, BitVec.or_append, BitVec.or_zero]
  exact BitVec.extractLsb'_append_eq_left

/-- The data nibble falls on no control bit. -/
theorem hasBit_packWriteWord (d : BitVec 4) (blb e rs : Bool) {mask : Byte} (hm : 0x0F#8 &&& mask = mask) :
    hasBit (packWriteWord d blb e rs) mask = hasBit (controlBits blb e rs) mask := by
  have hd : (d ++ 0#4) &&& 0x0F#8 = 0#8 := by
    show (d ++ 0#4) &&& (0#4 ++ 0xF#4) = 0#4 ++ 0#4
    rw [BitVec.and_append, BitVec.and_zero, BitVec.zero_and]
  rw [packWriteWord_eq_or, hasBit_or hd hm]

/-- Each mask finds its bit, and bit 1 is clear. -/
theorem hasBit_controlBits (blb e rs : Bool) :
    hasBit (controlBits blb e rs) Config.blMask = blb ∧ hasBit (controlBits blb e rs) Config.enMask = e ∧
      hasBit (controlBits blb e rs) Config.rsMask = rs ∧ hasBit (controlBits blb e rs) (~~~ writeWordBits) = false := by
  revert blb e rs
  decide

theorem decodeWriteWord_packWriteWord (d : BitVec 4) (blb e rs : Bool) :
    decodeWriteWord (packWriteWord d blb e rs) = .ok (.writeWord d blb e rs) := by
  obtain ⟨hbl, hen, hrs, hstray⟩ := hasBit_controlBits blb e rs
  rw [decodeWriteWord, hasBit_packWriteWord _ _ _ _ rfl, hasBit_packWriteWord _ _ _ _ rfl, hasBit_packWriteWord _ _ _ _ rfl,
    hasBit_packWriteWord _ _ _ _ rfl, dataNibble_packWriteWord, hbl, hen, hrs, hstray]
  rfl

/-- R60: the flag stands above the seven address bits. -/
theorem setDdramByte_eq_append (addr7 : BitVec 7) : setDdramByte addr7 = 1#1 ++ addr7 := by
  show 0x80#8 ||| addr7.setWidth 8 = _
  rw [BitVec.setWidth_eq_append (by decide)]
  show (1#1 ++ 0#7) ||| (0#1 ++ addr7) = _
  rw [BitVec.or_append, BitVec.zero_or, BitVec.or_zero]

theorem decodeCommand_setDdramByte (addr7 : BitVec 7) : decodeCommand (setDdramByte addr7) = .ok (.cmdSetDdram addr7) := by
  have haddr : (setDdramByte addr7).extractLsb' 0 7 = addr7 := by
    rw [setDdramByte_eq_append]
    exact BitVec.extractLsb'_append_eq_right
  have hflag : hasBit (setDdramByte addr7) Config.cmdSetDdram = true := by
    rw [setDdramByte_eq_append, hasBit, bne_iff_ne]
    show (1#1 ++ addr7) &&& (1#1 ++ 0#7) ≠ 0#8
    rw [BitVec.and_append, BitVec.and_zero]
    decide
  have hother {b : Byte} (hb : hasBit b Config.cmdSetDdram = false) : setDdramByte addr7 ≠ b := by
    rintro rfl
    rw [hb] at hflag
    cases hflag
  rw [decodeCommand, if_neg (hother rfl), if_neg (hother rfl), if_neg (hother rfl), if_neg (hother rfl), if_pos hflag, haddr]

/-! ## Decoding the encoding -/

/-- The word of a row that has one decodes to the row. -/
theorem map_decode_encodeOne {i : Instr} (hp : i.isPseudo = false) (hw : i.wellFormed = true) :
    (encodeOne i).map decode = [.ok i] := by
  have one {e : Encoded} (h : decode e = .ok i) : [e].map decode = [.ok i] := congrArg (fun r => [r]) h
  cases i with
  | init _ | clear | setCursor _ _ | putc _ | backlightOn | backlightOff | reserved _ =>
    exact one (congrArg Except.ok (decodeRequest_requestWord rfl hw))
  | print _ _ _ | teardown => cases hp
  | writeWord d blb e rs => exact one (decodeWriteWord_packWriteWord d blb e rs)
  | cmdSetDdram addr7 => exact one (decodeCommand_setDdramByte addr7)
  | blWord blb => cases blb <;> rfl
  | nibFs8 | nibFs4 | cmdFunctionSet | cmdDisplayCtrl | cmdClear | cmdEntryMode | data _ => rfl

theorem expand_of_not_pseudo {i : Instr} (hp : i.isPseudo = false) : expand i = [i] := by
  cases i with
  | print _ _ _ | teardown => cases hp
  | _ => rfl

/-- A row of an expansion has a word of its own. -/
theorem isPseudo_of_mem_expand {i j : Instr} (hj : j ∈ expand i) : j.isPseudo = false := by
  cases hp : i.isPseudo with
  | false =>
    rw [expand_of_not_pseudo hp, List.mem_singleton] at hj
    exact hj ▸ hp
  | true => exact isPseudo_of_isRequest (isRequest_of_mem_expand hp hj)

/-- An expansion brings in no reserved request (R70, R71). -/
theorem wellFormed_of_mem_expand {i j : Instr} (hw : i.wellFormed = true) (hj : j ∈ expand i) : j.wellFormed = true := by
  have hall : (expand i).all Instr.wellFormed = true := by
    cases i with
    | print text col row => simp [expand, Instr.wellFormed]
    | reserved w => simpa [expand] using hw
    | _ => rfl
  exact List.all_eq_true.1 hall j hj

/-- Settles O4: row by row of the expansion (`map_decode_encodeOne`). -/
theorem decodeOfEncodeIsTheInstruction : Obligations.DecodeOfEncodeIsTheInstruction := by
  intro i hw
  calc (encode i).map decode
      = (expand i).flatMap fun j => (encodeOne j).map decode := by rw [encode, List.map_flatMap]
    _ = (expand i).flatMap fun j => [.ok j] := List.flatMap_congr fun j hj =>
        map_decode_encodeOne (isPseudo_of_mem_expand hj) (wellFormed_of_mem_expand hw hj)
    _ = (expand i).map .ok := List.map_eq_flatMap.symm

/-! ## The halves of a byte -/

theorem hi_append (h l : BitVec 4) : hi (h ++ l) = h ++ 0#4 := by
  have hmask : (h ++ l) &&& (BitVec.allOnes 4 ++ 0#4) = h ++ 0#4 := by
    rw [BitVec.and_append, BitVec.and_allOnes, BitVec.and_zero]
  exact hmask

theorem lo_append (h l : BitVec 4) : lo (h ++ l) = l ++ 0#4 := by
  have hshift : (h ++ l) <<< 4 = l ++ 0#4 := by
    rw [BitVec.shiftLeft_eq_concat_of_lt (by decide)]
    exact congrArg (· ++ 0#4) BitVec.extractLsb'_append_eq_right
  rw [lo, hshift]
  exact hi_append l 0#4

/-- Settles O5: a byte is its two nibbles, and each half is one of them above four zeros. -/
theorem byteSplitLosesNoBit : Obligations.ByteSplitLosesNoBit := by
  refine fun x => ⟨?_, hi_and_0x0F x, lo_and_0x0F x⟩
  have hx : x = x.extractLsb' 4 4 ++ x.extractLsb' 0 4 := (BitVec.extractLsb'_append_extractLsb' (w := 4) (len := 4)).symm
  generalize x.extractLsb' 4 4 = h, x.extractLsb' 0 4 = l at hx
  have hback : (l ++ 0#4) >>> 4 = 0#4 ++ l := by
    rw [BitVec.ushiftRight_eq_extractLsb'_of_lt (by decide)]
    exact congrArg (0#4 ++ ·) BitVec.extractLsb'_append_eq_left
  rw [hx, hi_append, lo_append, hback, BitVec.or_append, BitVec.zero_or, BitVec.or_zero]

/-! ## An emitted value, all answers Ok -/

theorem eq_zero_of_ofCode_ok {c : BitVec 2} (h : TxResult.ofCode c = .ok) : c = 0 := by
  unfold TxResult.ofCode at h
  split_ifs at h with hzero
  exact hzero

/-- A row that is no request puts its events on the ports, and writes no register (log 6). -/
theorem serve_emitted_all_ok {i : Instr} (hp : i.isPseudo = false) (hr : i.isRequest = false) {s : State}
    {rest : List (BitVec 2)} (ha : s.answers = List.replicate (writesOf (eventList i)) 0 ++ rest) :
    serve i s = sent (okTrace s.addr s.bl (eventList i)) rest s := by
  have hne : eventList i ≠ [] := eventList_ne_nil hp (by rintro w rfl; cases hr)
  have hphase : phaseAfter s.phase (eventList i) = s.phase :=
    phaseAfter_of_none (eventList_phaseAfter (isInit_eq_false (by rintro a rfl; cases hr))) s.phase
  calc serve i s
      = { s.begin i with tx := none }.resume := by
        rw [serve_emitted hp hr]
        exact (resume_setTx (s := s.begin i) rfl hne none).symm
    _ = _ := State.resume_all_ok { s.begin i with tx := none } i rest rfl rfl rfl ha
    _ = sent (okTrace s.addr s.bl (eventList i)) rest s := by
        rw [State.conclude_subOperation _ _ i _ rfl hr]
        simp only [State.begin_phase, hphase]
        rfl

/-- Settles O16: both rows have one event, the write of their word. -/
theorem plainWordsAreSent : Obligations.PlainWordsAreSent := by
  intro d blb e rs s c rest hb ha hc
  rw [eq_zero_of_ofCode_ok hc] at ha
  rw [exec_idle _ s hb, exec_idle _ s hb, serve_emitted_all_ok rfl rfl ha, serve_emitted_all_ok rfl rfl ha,
    ← packWriteWord_eq_append]
  exact ⟨rfl, rfl⟩

/-! ## The response of a request -/

/-- What acceptance writes is gone after a violation (R143). -/
theorem contractViolation_accept (i : Instr) (s : State) : (s.accept i).contractViolation = violated s := by
  rw [violated, responded, List.append_nil]
  rfl

/-- Settles O18: a reserved request is refused in every phase, and the decoder knows the words of R63 and R64. -/
theorem reservedRequestsViolateTheContract : Obligations.ReservedRequestsViolateTheContract := by
  refine fun w s hb => ⟨?_, fun h => (decodeRequest_eq_reserved_iff w).2 (by simpa [Instr.wellFormed] using h)⟩
  rw [exec_idle _ s hb, serve_refused rfl rfl]
  exact congrArg _ (contractViolation_accept _ s)

/-- A play puts bus writes and waits on the ports, no response. -/
theorem resp_notMem_play {addr : Byte} {bl : Bool} {ph : Phase} {l : List Micro} {as : List (BitVec 2)} {st : Status} :
    Out.resp st ∉ (play addr bl ph l as).out := by
  induction l generalizing ph as with
  | nil => exact List.not_mem_nil
  | cons m ms ih =>
    obtain ⟨ev, p⟩ := m
    cases ev with
    | wait t => simp [play, Play.cons, ih]
    | write w =>
      cases as with
      | nil => simp [play]
      | cons c cs => cases hc : TxResult.ofCode c <;> simp [play, Play.cons, hc, ih]

/-- A play waits only when it has more writes than answers. -/
theorem length_lt_of_play_waiting {addr : Byte} {bl : Bool} {ph : Phase} {l : List Micro} {as : List (BitVec 2)} {x : Byte}
    (h : (play addr bl ph l as).ending = .waiting x) : as.length < writesOf l := by
  induction l generalizing ph as with
  | nil => cases h
  | cons m ms ih =>
    obtain ⟨ev, p⟩ := m
    cases ev with
    | wait t =>
      have hms := ih (by simpa [play, Play.cons] using h)
      simpa [writesOf] using hms
    | write w =>
      have hwrites : writesOf (⟨.write w, p⟩ :: ms) = writesOf ms + 1 := by simp [writesOf]
      rw [hwrites]
      cases as with
      | nil => exact Nat.succ_pos _
      | cons c cs =>
        refine Nat.succ_lt_succ ?_
        cases hc : TxResult.ofCode c with
        | ok => exact ih (by simpa [play, Play.cons, hc] using h)
        | unreachable => simp [play, hc] at h
        | ioFailure => simp [play, hc] at h

/-- R84: INIT makes the most writes. -/
theorem writeCount_le (i : Instr) : writeCount i ≤ 36 := by
  cases i <;> simp [writeCount]

theorem State.busError_request (st : Status) {s : State} {i : Instr} {k : Nat} (hu : s.useq = .running i k)
    (hr : i.isRequest = true) : s.busError st = { s with phase := s.phaseAfterAbort }.respond st :=
  State.conclude_request st { s with phase := s.phaseAfterAbort } i k hu hr

/-- With an answer for each of its writes a request comes to its response, whatever the answers. -/
theorem resume_responds {s : State} {i : Instr} (hr : i.isRequest = true) (hb : s.busy = true) (hu : s.useq = .running i 0)
    (hne : eventList i ≠ []) (ha : writesOf (eventList i) ≤ s.answers.length) :
    ∃ st, s.resume.busy = false ∧ s.resume.result = some st ∧
      s.resume.out = s.out ++ (play s.addr s.bl s.phase (eventList i) s.answers).out ++ [.resp st] := by
  have hcases := s.resume_cases i 0 hb hu hne
  have hwait (x : Byte) : (play s.addr s.bl s.phase (eventList i) s.answers).ending ≠ .waiting x := fun he =>
    Nat.not_lt.2 ha (length_lt_of_play_waiting he)
  rw [List.drop_zero] at hcases
  generalize play s.addr s.bl s.phase (eventList i) s.answers = p at *
  have hplayed : (s.played p).useq = .running i (0 + p.count) := by rw [State.played, hu]; rfl
  rcases hcases with ⟨x, he, -⟩ | ⟨-, h⟩ | ⟨st, -, h⟩
  · exact absurd he (hwait x)
  · rw [State.conclude_request _ _ i _ hplayed hr] at h
    exact ⟨.ok, by rw [h]; exact ⟨rfl, rfl, rfl⟩⟩
  · rw [State.busError_request st hplayed hr] at h
    exact ⟨st, by rw [h]; exact ⟨rfl, rfl, rfl⟩⟩

/-- Settles O28: a request that is refused responds at once, and one that is permitted after its events (`resume_responds`). -/
theorem everyRequestGetsOneResponse : Obligations.EveryRequestGetsOneResponse := by
  intro i s hr hb ha
  rw [exec_idle i s hb]
  cases hp : permitted s i with
  | false =>
    rw [serve_refused hr hp, contractViolation_accept]
    exact ⟨_, [], .contractViolation, rfl, rfl, rfl, rfl, fun _ => List.not_mem_nil⟩
  | true =>
    obtain ⟨hanswers, hout, -, -⟩ := setUp_ports i s
    have henough : writesOf (eventList i) ≤ (setUp i s).answers.length := by
      rw [writesOf_eventList hr, hanswers]
      exact (writeCount_le i).trans ha
    obtain ⟨st, hbusy, hresult, hresume⟩ := resume_responds hr (s := (setUp i s).accept i) rfl rfl
      (eventList_ne_nil_of_permitted hp) henough
    rw [serve_permitted hp]
    exact ⟨_, _, st, rfl, hbusy, by rw [hresume, State.accept_out, hout], hresult, fun st' => resp_notMem_play⟩

/-! ## Inputs by what they decode to -/

/-- Settles O45: only a byte fails to decode, and what decodes is taken. -/
theorem onlyBytesOfNoRowAreRefused : Obligations.OnlyBytesOfNoRowAreRefused := by
  intro s rest e hb hs
  have taken (i : Instr) (hd : decode e = .ok i) : ∃ t, step s = .next t := ⟨_, (Takes.word hd).step_eq hb hs⟩
  refine ⟨fun why hd => ?_, taken, ?_⟩
  · rw [step_idle hb, stepIdle_cons hs, takeInput, runEncoded, hd]
  · rintro w rfl
    exact taken _ rfl

end Sys2Proof.Machine

/-! # The waveform of the enable bit

R77, R78: in the trace of a request the enable bit is high in the second write of a nibble pulse and nowhere else. -/

namespace Sys2Proof.Machine

open Sys2Proof.Spec

/-! ## The enable bit of a word -/

/-- Setting the enable bit of a word that has it low, and clearing it again, gives the word back. -/
theorem enableLow_or_enMask {w : Byte} (hw : hasBit w Config.enMask = false) : enableLow (w ||| Config.enMask) = w := by
  have hlow : w &&& Config.enMask = 0#8 := by simpa [hasBit] using hw
  calc (w ||| Config.enMask) &&& ~~~Config.enMask
      = w &&& ~~~Config.enMask := by
        rw [BitVec.and_or_distrib_right, BitVec.and_not_self]
        exact BitVec.or_zero
    _ = w &&& Config.enMask ||| w &&& ~~~Config.enMask := by rw [hlow, BitVec.zero_or]
    _ = w &&& BitVec.allOnes 8 := BitVec.and_or_distrib_left.symm
    _ = w := BitVec.and_allOnes

/-- R55: neither a nibble value nor its control bits `ctl(m)` raise the enable bit. -/
theorem hasBit_or_control_enMask {n : Byte} (hn : n &&& 0x0F#8 = 0#8) (data bl : Bool) :
    hasBit (n ||| control data bl) Config.enMask = false := by
  rw [hasBit_or hn rfl]
  cases data <;> cases bl <;> rfl

/-! ## Records whose enable pulses are whole -/

/-- Every write with enable high is the second of the five events of a pulse (R78); the low hold may take in `T_FS3` (log 35). -/
def PulsesWhole (tr : List Out) : Prop :=
  ∀ pre post a w r, tr = pre ++ Out.w a w r :: post → hasBit w Config.enMask = true →
    ∃ pre' post' lowHold, pre = pre' ++ [Out.w a (enableLow w) .ok] ∧ (lowHold = .tPw ∨ lowHold = .tPwFs3) ∧
      post = .d .tPw :: .w a (enableLow w) .ok :: .d lowHold :: post'

theorem pulsesWhole_of_enable_low {l : List Out} (h : ∀ a w r, Out.w a w r ∈ l → hasBit w Config.enMask = false) :
    PulsesWhole l := by
  rintro pre post a w r rfl hen
  have hlow := h a w r (by simp)
  rw [hlow] at hen
  cases hen

theorem PulsesWhole.append {l l' : List Out} (h : PulsesWhole l) (h' : PulsesWhole l') : PulsesWhole (l ++ l') := by
  intro pre post a w r htr hen
  rcases List.append_eq_append_iff.1 htr with ⟨mid, rfl, hl'⟩ | ⟨mid, hl, hpost⟩
  · obtain ⟨pre', post', lowHold, rfl, hhold, rfl⟩ := h' mid post a w r hl' hen
    exact ⟨l ++ pre', post', lowHold, by simp, hhold, rfl⟩
  · cases mid with
    | nil =>
      obtain ⟨pre', post', lowHold, hpre, hhold, rfl⟩ := h' [] post a w r hpost.symm hen
      simp at hpre
    | cons o mid =>
      obtain ⟨rfl, rfl⟩ := List.cons.inj hpost
      obtain ⟨pre', post', lowHold, hpre, hhold, rfl⟩ := h pre mid a w r hl hen
      exact ⟨pre', post' ++ l', lowHold, hpre, hhold, rfl⟩

theorem pulsesWhole_wait (t : Delay) : PulsesWhole [.d t] :=
  pulsesWhole_of_enable_low (by simp)

/-- R77: the write with enable high is the second event. -/
theorem pulsesWhole_pulse {n : Byte} (hn : n &&& 0x0F#8 = 0#8) {lowHold : Delay} (hhold : lowHold = .tPw ∨ lowHold = .tPwFs3)
    (a : Byte) (bl data : Bool) : PulsesWhole (pulse a bl data n lowHold) := by
  have hlow := hasBit_or_control_enMask hn data bl
  have hback := enableLow_or_enMask hlow
  rw [pulse]
  generalize n ||| control data bl = x at hlow hback
  intro pre post b w r htr hen
  have notLow : w ≠ x := fun h => Bool.false_ne_true (hlow.symm.trans (h ▸ hen))
  match pre with
  | [] =>
    simp only [List.nil_append, List.cons.injEq, Out.w.injEq] at htr
    obtain ⟨⟨-, hw, -⟩, -⟩ := htr
    exact absurd hw.symm notLow
  | [first] =>
    simp only [List.cons_append, List.nil_append, List.cons.injEq, Out.w.injEq] at htr
    obtain ⟨rfl, ⟨rfl, rfl, rfl⟩, rfl⟩ := htr
    rw [hback]
    exact ⟨[], [], lowHold, rfl, hhold, rfl⟩
  | _ :: _ :: pre =>
    have hmem : Out.w b w r ∈ [Out.d .tPw, .w a x .ok, .d lowHold] := by
      rw [(List.cons.inj (List.cons.inj htr).2).2]
      exact List.mem_append_cons_self
    obtain ⟨-, hw, -⟩ : b = a ∧ w = x ∧ r = .ok := by simpa using hmem
    exact absurd hw notLow

theorem pulsesWhole_nibble {n : Byte} (hn : n &&& 0x0F#8 = 0#8) (a : Byte) (bl data : Bool) :
    PulsesWhole (nibble a bl data n) := pulsesWhole_pulse hn (.inl rfl) a bl data

theorem pulsesWhole_byte (a : Byte) (bl data : Bool) (x : Byte) : PulsesWhole (byte a bl data x) :=
  (pulsesWhole_nibble (hi_and_0x0F x) a bl data).append (pulsesWhole_nibble (lo_and_0x0F x) a bl data)

theorem pulsesWhole_initTrace (a : Byte) (bl : Bool) : PulsesWhole (initTrace a bl) := by
  have hfs8 := pulsesWhole_nibble (n := Config.nibFs8) rfl a bl false
  have hfs8Last := pulsesWhole_pulse (n := Config.nibFs8) rfl (.inr rfl) a bl false
  have hfs4 := pulsesWhole_nibble (n := Config.nibFs4) rfl a bl false
  have hbyte := pulsesWhole_byte a bl false
  have hstage1 := (((hfs8.append (pulsesWhole_wait .tFs1)).append hfs8).append (pulsesWhole_wait .tFs2)).append hfs8Last
  exact (((((hstage1.append hfs4).append (hbyte _)).append (hbyte _)).append (hbyte _)).append
    (pulsesWhole_wait .tClr)).append (hbyte _)

/-- R61: a backlight word is no part of a pulse. -/
theorem pulsesWhole_backlight (a : Byte) (bl : Bool) : PulsesWhole [.w a (backlightWord bl) .ok] := by
  refine pulsesWhole_of_enable_low fun b w r hw => ?_
  obtain ⟨-, rfl, -⟩ := Out.w.inj (List.mem_singleton.1 hw)
  cases bl <;> rfl

/-- R78, R170: whatever the row and its operands. -/
theorem pulsesWhole_requestTrace (a : Byte) (bl : Bool) (i : Instr) : PulsesWhole (requestTrace a bl i) := by
  cases i with
  | init _ => exact pulsesWhole_initTrace a bl
  | clear => exact (pulsesWhole_byte a bl false _).append (pulsesWhole_wait .tClr)
  | setCursor col row => exact pulsesWhole_byte a bl false _
  | putc code => exact pulsesWhole_byte a bl true code
  | backlightOn | backlightOff => exact pulsesWhole_backlight a bl
  | _ => exact pulsesWhole_of_enable_low (by simp [requestTrace])

/-- A permitted request, all answers Ok, adds its trace to the record, and after it at most a response. -/
theorem serve_permitted_all_ok_out {i : Instr} {s : State} {rest : List (BitVec 2)} (hp : permitted s i = true)
    (ha : s.answers = List.replicate (writeCount i) 0 ++ rest) :
    ∃ tail, (serve i s).out = s.out ++ (requestTrace (setUp i s).addr (setUp i s).bl i ++ tail) ∧
      ∀ o ∈ tail, ∃ st, o = .resp st := by
  obtain ⟨hanswers, hout, -, -⟩ := setUp_ports i s
  obtain ⟨tail, htr, htail⟩ := resume_out (s := (setUp i s).accept i) rfl rfl (eventList_ne_nil_of_permitted hp)
  have hans : ((setUp i s).accept i).answers = List.replicate (writesOf (eventList i)) 0 ++ rest := by
    rw [writesOf_eventList (isRequest_of_permitted hp), ← ha, ← hanswers]
    rfl
  rw [hans, List.drop_zero, play_all_ok, ← requestTrace_eq_okTrace hp, State.accept_out, hout] at htr
  rw [serve_permitted hp]
  exact ⟨tail, htr, htail⟩

/-- Settles O35: the request adds its trace, whose pulses are whole, and a response. -/
theorem enablePulsesAreWhole : Obligations.EnablePulsesAreWhole := by
  intro i s rest hb hp ha
  obtain ⟨tail, hout, htail⟩ := serve_permitted_all_ok_out hp ha
  have hlow : PulsesWhole tail := pulsesWhole_of_enable_low fun a w r hw => by
    obtain ⟨st, hst⟩ := htail _ hw
    cases hst
  exact ⟨_, _, exec_idle i s hb, hout, (pulsesWhole_requestTrace _ _ i).append hlow⟩

end Sys2Proof.Machine

/-! # Requests that end with Ok

A permitted request whose bus writes are all answered Ok, as a whole next state: its trace and its response on the ports, the
registers as its acceptance and its phase changes leave them. -/

namespace Sys2Proof.Machine

open Sys2Proof.Spec

theorem phaseAfter_eventList {i : Instr} {s : State} (hp : permitted s i = true) :
    phaseAfter s.phase (eventList i) = phaseDone i s.phase := by
  calc phaseAfter s.phase (eventList i)
      = phaseAfter s.phase ((eventList i).take (eventList i).length) := by rw [List.take_length]
    _ = phaseAt i (eventList i).length s.phase := phaseAfter_eventList_take hp _
    _ = phaseDone i s.phase := by cases i <;> rfl

/-- R83, R183: a permitted request, all answers Ok. -/
theorem serve_permitted_all_ok {i : Instr} {s : State} {rest : List (BitVec 2)} (hp : permitted s i = true)
    (ha : s.answers = List.replicate (writeCount i) 0 ++ rest) :
    serve i s = { responded .ok (requestTrace (setUp i s).addr (setUp i s).bl i) rest (setUp i s) with
      phase := phaseDone i s.phase } := by
  have hr : i.isRequest = true := isRequest_of_permitted hp
  have hans : (setUp i s).answers = List.replicate (writesOf (eventList i)) 0 ++ rest := by
    rw [(setUp_ports i s).1, writesOf_eventList hr, ha]
  have hphase : phaseAfter (setUp i s).phase (eventList i) = phaseDone i s.phase := by
    rw [setUp_phase, phaseAfter_eventList hp]
  calc serve i s
      = { (setUp i s).accept i with tx := none }.resume := by
        rw [serve_permitted hp]
        exact (resume_setTx (s := (setUp i s).accept i) rfl (eventList_ne_nil_of_permitted hp) none).symm
    _ = _ := State.resume_all_ok { (setUp i s).accept i with tx := none } i rest rfl rfl rfl hans
    _ = { responded .ok (requestTrace (setUp i s).addr (setUp i s).bl i) rest (setUp i s) with
          phase := phaseDone i s.phase } := by
        rw [State.conclude_request _ _ i _ rfl hr, requestTrace_eq_okTrace hp]
        simp only [State.accept_phase, hphase]
        rfl

/-- Settles O7: INIT is permitted in `Uninitialized`, writes `ADDR` at acceptance, and its phases end in `Configured`. -/
theorem initRunsTheHandshake : Obligations.InitRunsTheHandshake := by
  intro a s rest hb hphase ha
  have hp : permitted s (.init a) = true := decide_eq_true hphase
  rw [exec_idle _ s hb, serve_permitted_all_ok hp ha]
  rfl

end Sys2Proof.Machine

/-! # The display operations

CLEAR, SET_CURSOR and PUTC are `serve_permitted_all_ok` and `serve_refused` for one row each. PRINT is an induction over the
requests the host issues: each ends with Ok and the host goes on, or it does not and the host stops. -/

namespace Sys2Proof.Machine

open Sys2Proof.Spec

/-! ## The address of a cursor -/

/-- R60, R101. -/
theorem ddram_eq {col row : Byte} (hr : row.toNat ≤ 1) : ddram col row = row.toNat * 0x40 + col.toNat := by
  obtain h | h : row.toNat = 0 ∨ row.toNat = 1 := by omega
  · simp [ddram, h, Config.rowOffset]
  · simp [ddram, h, Config.rowOffset]

/-- Settles O6: the sum is below the command's flag bit, so OR-ing the flag adds it (`cursorCommand_eq_cursorByte`). -/
theorem cursorAddressIsExact : Obligations.CursorAddressIsExact := by
  intro col row hc hr
  have haddr := ddram_eq (col := col) hr
  exact ⟨haddr, by omega, cursorCommand_eq_cursorByte hc hr⟩

/-! ## One request -/

/-- R143, R144: an idle block answers a request that is not permitted with the violation. -/
theorem exec_refused {i : Instr} {s : State} (hr : i.isRequest = true) (hb : s.busy = false) (hp : permitted s i = false) :
    exec i s = .next (violated s) := by
  rw [exec_idle i s hb, serve_refused hr hp, contractViolation_accept]

theorem permitted_setCursor_of_in_range {s : State} {col row : Byte} (hs : s.phase = .configured) (hc : col.toNat ≤ 15)
    (hr : row.toNat ≤ 1) : permitted s (.setCursor col row) = true := by
  simp [permitted, hs, hc, hr]

theorem not_permitted_setCursor {s : State} {col row : Byte}
    (h : s.phase ≠ .configured ∨ 15 < col.toNat ∨ 1 < row.toNat) : permitted s (.setCursor col row) = false := by
  rcases h with h | h | h
  · simp [permitted, h]
  · simp [permitted, Nat.not_le.2 h]
  · simp [permitted, Nat.not_le.2 h]

/-- Log 11: no code is refused. -/
theorem permitted_putc (s : State) (code : Byte) : permitted s (.putc code) = decide (s.phase = .configured) :=
  Bool.and_true _

/-- Settles O8. -/
theorem clearSendsTheCommandAndWaits : Obligations.ClearSendsTheCommandAndWaits := by
  refine fun s rest hb => ⟨fun hs ha => ?_, fun hs => exec_refused rfl hb (decide_eq_false hs)⟩
  have hp : permitted s .clear = true := decide_eq_true hs
  rw [exec_idle _ s hb, serve_permitted_all_ok hp ha]
  rfl

/-- Settles O9: what is in range is permitted in `Configured`, and nothing else is. -/
theorem setCursorSendsTheAddress : Obligations.SetCursorSendsTheAddress := by
  refine fun col row s rest hb => ⟨fun hs hc hr ha => ?_, fun h => exec_refused rfl hb (not_permitted_setCursor h)⟩
  rw [exec_idle _ s hb, serve_permitted_all_ok (permitted_setCursor_of_in_range hs hc hr) ha]
  rfl

/-- Settles O10: PUTC depends on the phase alone (`permitted_putc`). -/
theorem putcSendsTheCode : Obligations.PutcSendsTheCode := by
  refine fun code s rest hb => ⟨fun hs ha => ?_, fun hs => exec_refused rfl hb ?_⟩
  · have hp : permitted s (.putc code) = true := by rw [permitted_putc, decide_eq_true hs]
    rw [exec_idle _ s hb, serve_permitted_all_ok hp ha]
    rfl
  · rw [permitted_putc, decide_eq_false hs]

theorem execAll_cons {i : Instr} {s t : State} (h : exec i s = .next t) (l : List Instr) :
    execAll (i :: l) s = execAll l t := by
  rw [execAll, h]

/-- Settles O37: the state that CLEAR leaves is idle and `Configured`, and CLEAR reads nothing else of it. -/
theorem secondClearWaitsAgain : Obligations.SecondClearWaitsAgain := by
  intro s rest hb hs ha
  have hfirst := (clearSendsTheCommandAndWaits s (List.replicate 6 0 ++ rest) hb).1 hs ha
  have hsecond := (clearSendsTheCommandAndWaits
    (responded .ok (clearTrace s.addr s.bl) (List.replicate 6 0 ++ rest) s) rest rfl).1 hs rfl
  refine ⟨_, (execAll_cons hfirst _).trans (execAll_cons hsecond _), ?_⟩
  simp [responded]

/-! ## The host goes on, or stops -/

theorem runTodo_cons_ok {i : Instr} (hi : i.isRequest = true) (l : List Instr) {s : State} (hb : (serve i s).busy = false)
    (hok : (serve i s).result = some .ok) : runTodo (i :: l) s = runTodo l (serve i s) := by
  rw [runTodo_cons hi, hb, State.hostNext, if_pos hok]
  rfl

theorem runTodo_cons_stops {i : Instr} (hi : i.isRequest = true) (l : List Instr) {s : State}
    (hb : (serve i s).busy = false) (hok : (serve i s).result ≠ some .ok) :
    runTodo (i :: l) s = { serve i s with todo := [] } := by
  rw [runTodo_cons hi, hb, State.hostNext, if_neg hok]
  rfl

/-- A host whose requests have all ended with Ok has seen its first end with Ok. -/
theorem serve_ok_of_runTodo_ok {i : Instr} (hi : i.isRequest = true) {l : List Instr} {s : State}
    (hb : (runTodo (i :: l) s).busy = false) (hok : (runTodo (i :: l) s).result = some .ok) :
    (serve i s).busy = false ∧ (serve i s).result = some .ok := by
  cases hbusy : (serve i s).busy with
  | true =>
    rw [runTodo_cons hi, hbusy] at hb
    exact absurd (hbusy.symm.trans hb) (by decide)
  | false =>
    by_cases hresult : (serve i s).result = some .ok
    · exact ⟨rfl, hresult⟩
    · rw [runTodo_cons_stops hi l hbusy hresult] at hok
      exact absurd hok hresult

/-- R106: a text passes the check of its characters (log 11), and the host issues the requests. -/
theorem exec_print (text : List Byte) (col row : Byte) {s : State} (hb : s.busy = false) :
    exec (.print text col row) s = .next (runTodo (.setCursor col row :: text.map .putc) s) := by
  rw [exec_idle _ s hb, serve_pseudo rfl, expand]

/-- Settles O20: SET_CURSOR, the first request, is refused (R95, R100), and the host stops (R106). -/
theorem printRefusedAtItsFirstRequestSendsNothing : Obligations.PrintRefusedAtItsFirstRequestSendsNothing := by
  intro text col row s hb _ h
  have hp : permitted s (.setCursor col row) = false := not_permitted_setCursor (or_rotate.2 h)
  have hserve : serve (.setCursor col row) s = violated s := by
    rw [serve_refused rfl hp, contractViolation_accept]
  have hstops := runTodo_cons_stops (i := .setCursor col row) rfl (text.map .putc) (s := s)
    (by rw [hserve]; rfl) (by rw [hserve]; exact fun h => nomatch h)
  rw [exec_print text col row hb, hstops, hserve]

/-! ## PRINT, all answers Ok -/

/-- The state after the SET_CURSOR of a PRINT and the PUTCs of the characters `text`, whatever the host has still to issue. -/
def printed (text : List Byte) (col row : Byte) (rest : List (BitVec 2)) (s : State) : State :=
  { s with
    busy := false, useq := .idle, tx := none, result := some .ok, answers := rest
    req := Config.freeReq (s.freeIx + text.length), freeIx := s.freeIx + text.length + 1
    out := s.out ++ printTrace s.addr s.bl text col row
    lcd := s.lcd.observeAll (printTrace s.addr s.bl text col row)
    panel := s.panel.followAll (printTrace s.addr s.bl text col row) }

theorem printTrace_concat (a : Byte) (bl : Bool) (text : List Byte) (c col row : Byte) :
    printTrace a bl (text ++ [c]) col row = printTrace a bl text col row ++ (byte a bl true c ++ [.resp .ok]) := by
  simp [printTrace]

/-- A response is nothing to the display. -/
@[simp] theorem Display.follow_resp (d : Display) (st : Status) : d.follow (.resp st) = d := rfl

@[simp] theorem Display.observe_resp (d : Display) (st : Status) : d.observe (.resp st) = d := rfl

theorem serve_setCursor_eq_printed {col row : Byte} {s : State} (hs : s.phase = .configured) (hc : col.toNat ≤ 15)
    (hr : row.toNat ≤ 1) {rest : List (BitVec 2)} (ha : s.answers = List.replicate 6 0 ++ rest) :
    serve (.setCursor col row) s = printed [] col row rest s := by
  rw [serve_permitted_all_ok (permitted_setCursor_of_in_range hs hc hr) ha]
  simp [responded, printed, printTrace, setUp, requestTrace, phaseDone, Display.observeAll_append,
    Display.followAll_append]

/-- One more character. -/
theorem serve_putc_printed {col row : Byte} {s : State} (hs : s.phase = .configured) (text : List Byte) (c : Byte)
    (rest : List (BitVec 2)) :
    serve (.putc c) (printed text col row (List.replicate 6 0 ++ rest) s) = printed (text ++ [c]) col row rest s := by
  have hp : permitted (printed text col row (List.replicate 6 0 ++ rest) s) (.putc c) = true := by
    rw [permitted_putc]
    exact decide_eq_true hs
  rw [serve_permitted_all_ok hp rfl]
  simp [responded, printed, printTrace_concat, setUp, requestTrace, phaseDone, Display.observeAll_append,
    Display.followAll_append, Nat.add_assoc]

/-- By induction over the characters still to be written. -/
theorem runTodo_putcs_printed {col row : Byte} {s : State} (hs : s.phase = .configured) (rest : List (BitVec 2))
    (text written : List Byte) :
    runTodo (text.map .putc) (printed written col row (List.replicate (6 * text.length) 0 ++ rest) s) =
      { printed (written ++ text) col row rest s with todo := [] } := by
  induction text generalizing written with
  | nil => simp [runTodo]
  | cons c text ih =>
    have hanswers : List.replicate (6 * (c :: text).length) (0 : BitVec 2) ++ rest =
        List.replicate 6 0 ++ (List.replicate (6 * text.length) 0 ++ rest) := by
      rw [← List.append_assoc, List.replicate_append_replicate, List.length_cons, Nat.mul_succ, Nat.add_comm]
    have hserve := serve_putc_printed (col := col) (row := row) hs written c (List.replicate (6 * text.length) 0 ++ rest)
    have hgoes := runTodo_cons_ok (i := .putc c) rfl (text.map .putc) (by rw [hserve]; rfl) (by rw [hserve]; rfl)
    rw [hanswers, List.map_cons, hgoes, hserve, ih, List.append_assoc, List.singleton_append]

/-- Settles O12: SET_CURSOR (`serve_setCursor_eq_printed`), then the characters one by one (`runTodo_putcs_printed`). -/
theorem printWritesEveryCharacter : Obligations.PrintWritesEveryCharacter := by
  intro text col row s rest hb hs hc hr _ ha
  rw [← List.replicate_append_replicate, List.append_assoc] at ha
  have hserve := serve_setCursor_eq_printed hs hc hr ha
  have hgoes := runTodo_cons_ok (i := .setCursor col row) rfl (text.map .putc) (s := s)
    (by rw [hserve]; rfl) (by rw [hserve]; rfl)
  rw [exec_print text col row hb, hgoes, hserve, runTodo_putcs_printed hs]
  rfl

/-! ## The bus writes of a record -/

@[simp] theorem busWords_append (l l' : List Out) : busWords (l ++ l') = busWords l ++ busWords l' := by
  induction l with
  | nil => rfl
  | cons o rest ih => cases o <;> simp [busWords, ih]

theorem length_busWords_okTrace (a : Byte) (bl : Bool) (l : List Micro) :
    (busWords (okTrace a bl l)).length = writesOf l := by
  induction l with
  | nil => rfl
  | cons m ms ih =>
    obtain ⟨ev, p⟩ := m
    cases ev with
    | wait t => simpa [okTrace, writesOf, busWords] using ih
    | write w => simpa [okTrace, writesOf, busWords] using ih

/-- R84. -/
theorem length_busWords_requestTrace {i : Instr} {s : State} (hp : permitted s i = true) (a : Byte) (bl : Bool) :
    (busWords (requestTrace a bl i)).length = writeCount i := by
  rw [requestTrace_eq_okTrace hp, length_busWords_okTrace, writesOf_eventList (isRequest_of_permitted hp)]

theorem ok_of_mem_okTrace {a b x : Byte} {bl : Bool} {l : List Micro} {r : TxResult} (h : Out.w b x r ∈ okTrace a bl l) :
    r = .ok := by
  obtain ⟨⟨ev, p⟩, -, h⟩ := List.mem_map.1 h
  cases ev <;> cases h
  rfl

/-- The bus writes of a host's requests when nothing fails, R84. -/
def writeCounts (l : List Instr) : Nat := (l.map writeCount).sum

theorem writeCounts_cons (i : Instr) (l : List Instr) : writeCounts (i :: l) = writeCount i + writeCounts l := rfl

/-- R106: 6 writes for SET_CURSOR and 6 for each PUTC. -/
theorem writeCounts_print (text : List Byte) (col row : Byte) :
    writeCounts (.setCursor col row :: text.map .putc) = 6 + 6 * text.length := by
  have hputcs : writeCounts (text.map .putc) = 6 * text.length := by
    induction text with
    | nil => rfl
    | cons c text ih => rw [List.map_cons, writeCounts_cons, ih, List.length_cons, Nat.mul_succ, Nat.add_comm]; rfl
  rw [writeCounts_cons, hputcs]
  rfl

/-! ## A result Ok -/

/-- R81: an operation does not fail with Ok. -/
theorem play_ending_ne_failed_ok {a : Byte} {bl : Bool} {ph : Phase} {l : List Micro} {as : List (BitVec 2)} :
    (play a bl ph l as).ending ≠ .failed .ok := by
  induction l generalizing ph as with
  | nil => exact fun h => nomatch h
  | cons m ms ih =>
    obtain ⟨ev, p⟩ := m
    cases ev with
    | wait t => simpa [play, Play.cons] using ih
    | write w =>
      cases as with
      | nil => simp [play]
      | cons c cs => cases hc : TxResult.ofCode c <;> simp [play, Play.cons, hc, ih]

theorem play_out_of_done {a : Byte} {bl : Bool} {ph : Phase} {l : List Micro} {as : List (BitVec 2)}
    (h : (play a bl ph l as).ending = .done) : (play a bl ph l as).out = okTrace a bl l := by
  induction l generalizing ph as with
  | nil => rfl
  | cons m ms ih =>
    obtain ⟨ev, p⟩ := m
    cases ev with
    | wait t => exact congrArg (Out.d t :: ·) (ih h)
    | write w =>
      cases as with
      | nil => cases h
      | cons c cs =>
        simp only [play] at h ⊢
        cases hc : TxResult.ofCode c with
        | ok =>
          simp only [hc] at h ⊢
          exact congrArg (Out.w a (w.word bl) .ok :: ·) (ih h)
        | unreachable => simp [hc] at h
        | ioFailure => simp [hc] at h

/-- A request in progress that has ended with Ok has put all its events on the ports (R183). -/
theorem resume_out_of_ok {s : State} {i : Instr} (hr : i.isRequest = true) (hb : s.busy = true) (hu : s.useq = .running i 0)
    (hne : eventList i ≠ []) (hidle : s.resume.busy = false) (hok : s.resume.result = some .ok) :
    s.resume.out = s.out ++ okTrace s.addr s.bl (eventList i) ++ [.resp .ok] := by
  have hcases := s.resume_cases i 0 hb hu hne
  have hdone := play_out_of_done (a := s.addr) (bl := s.bl) (ph := s.phase) (l := eventList i) (as := s.answers)
  have hfailed := play_ending_ne_failed_ok (a := s.addr) (bl := s.bl) (ph := s.phase) (l := eventList i) (as := s.answers)
  rw [List.drop_zero] at hcases
  generalize play s.addr s.bl s.phase (eventList i) s.answers = p at *
  have hplayed : (s.played p).useq = .running i (0 + p.count) := by rw [State.played, hu]; rfl
  rcases hcases with ⟨x, -, h⟩ | ⟨he, h⟩ | ⟨st, he, h⟩
  · rw [h] at hidle
    exact absurd (hb.symm.trans hidle) (by decide)
  · rw [h, State.conclude_request _ _ i _ hplayed hr, ← hdone he]
    rfl
  · rw [h, State.busError_request st hplayed hr] at hok
    cases hok
    exact absurd he hfailed

/-- A request that ended with Ok was permitted, and has put its trace and its response on the ports. -/
theorem serve_ok {i : Instr} (hi : i.isRequest = true) {s : State} (hb : (serve i s).busy = false)
    (hok : (serve i s).result = some .ok) :
    permitted s i = true ∧
      (serve i s).out = s.out ++ (requestTrace (setUp i s).addr (setUp i s).bl i ++ [.resp .ok]) := by
  cases hp : permitted s i with
  | false =>
    rw [serve_refused hi hp] at hok
    cases hok
  | true =>
    obtain ⟨-, hout, -, -⟩ := setUp_ports i s
    rw [serve_permitted hp] at hb hok ⊢
    rw [resume_out_of_ok hi rfl rfl (eventList_ne_nil_of_permitted hp) hb hok, ← List.append_assoc,
      requestTrace_eq_okTrace hp, ← hout]
    exact ⟨rfl, rfl⟩

/-- R106, R107: when the host's requests have all ended with Ok, all their writes have been made and answered Ok. -/
theorem runTodo_ok {l : List Instr} (hl : ∀ i ∈ l, i.isRequest = true) {s : State} (hb : (runTodo l s).busy = false)
    (hok : (runTodo l s).result = some .ok) :
    ∃ tr, (runTodo l s).out = s.out ++ tr ∧ (busWords tr).length = writeCounts l ∧ ∀ a b r, Out.w a b r ∈ tr → r = .ok := by
  induction l generalizing s with
  | nil => exact ⟨[], (List.append_nil _).symm, rfl, fun _ _ _ h => nomatch h⟩
  | cons i l ih =>
    have hi := hl i List.mem_cons_self
    obtain ⟨hbusy, hresult⟩ := serve_ok_of_runTodo_ok hi hb hok
    obtain ⟨hp, hout⟩ := serve_ok hi hbusy hresult
    rw [runTodo_cons_ok hi l hbusy hresult] at hb hok ⊢
    obtain ⟨tr, htr, hcount, hwrites⟩ := ih (fun j hj => hl j (List.mem_cons_of_mem i hj)) hb hok
    refine ⟨requestTrace (setUp i s).addr (setUp i s).bl i ++ [.resp .ok] ++ tr, ?_, ?_, fun a b r h => ?_⟩
    · rw [htr, hout, List.append_assoc]
    · simp [busWords, hcount, length_busWords_requestTrace hp, writeCounts_cons]
    · rcases List.mem_append.1 h with h | h
      · rw [requestTrace_eq_okTrace hp] at h
        simp only [List.mem_append, List.mem_singleton, reduceCtorEq, or_false] at h
        exact ok_of_mem_okTrace h
      · exact hwrites a b r h

/-- Settles O29: PRINT is its requests, and they have all ended with Ok (`runTodo_ok`). -/
theorem printReportsOkOnlyWhenComplete : Obligations.PrintReportsOkOnlyWhenComplete := by
  intro text col row s t hb hexec hidle hok
  rw [exec_print text col row hb] at hexec
  cases hexec
  rw [← writeCounts_print text col row]
  exact runTodo_ok (fun i hi => isRequest_of_mem_expand (i := .print text col row) rfl hi) hidle hok

/-! ## A request that fails -/

theorem failAt_wait (n : Nat) (r : TxResult) (t : Delay) (l : List Out) : failAt n r (.d t :: l) = .d t :: failAt n r l := by
  cases n <;> rfl

/-- R149: the writes up to the one that failed have been made. -/
theorem length_busWords_failAt {n : Nat} (r : TxResult) {l : List Out} (hn : n < (busWords l).length) :
    (busWords (failAt n r l)).length = n + 1 := by
  induction l generalizing n with
  | nil => cases hn
  | cons o rest ih =>
    cases o with
    | w a b x =>
      cases n with
      | zero => rfl
      | succ n => exact congrArg Nat.succ (ih (Nat.lt_of_succ_lt_succ hn))
    | _ =>
      cases n with
      | zero => exact ih hn
      | succ n => exact ih hn

/-- With Ok for the first `n` writes and then an error, a list with more writes than that fails at the next. -/
theorem play_fails (a : Byte) (bl : Bool) (ph : Phase) {l : List Micro} {n : Nat} {c : BitVec 2} (rest : List (BitVec 2))
    (hn : n < writesOf l) (hc : TxResult.ofCode c ≠ .ok) :
    ∃ k ph', play a bl ph l (List.replicate n 0 ++ c :: rest) =
      ⟨failAt n (TxResult.ofCode c) (okTrace a bl l), rest, k, ph', .failed (TxResult.ofCode c).status⟩ := by
  induction l generalizing n ph with
  | nil => cases hn
  | cons m ms ih =>
    obtain ⟨ev, p⟩ := m
    cases ev with
    | wait t =>
      have hw : writesOf (⟨.wait t, p⟩ :: ms) = writesOf ms := by simp [writesOf]
      have htrace : okTrace a bl (⟨.wait t, p⟩ :: ms) = .d t :: okTrace a bl ms := rfl
      obtain ⟨k, ph', hplay⟩ := ih (p.getD ph) (hw ▸ hn)
      rw [htrace, failAt_wait, play, hplay]
      exact ⟨k + 1, ph', rfl⟩
    | write w =>
      have hw : writesOf (⟨.write w, p⟩ :: ms) = writesOf ms + 1 := by simp [writesOf]
      cases n with
      | zero =>
        refine ⟨0, ph, ?_⟩
        show play a bl ph (⟨.write w, p⟩ :: ms) (c :: rest) = _
        simp only [play]
        cases hr : TxResult.ofCode c with
        | ok => exact absurd hr hc
        | unreachable => rfl
        | ioFailure => rfl
      | succ n =>
        obtain ⟨k, ph', hplay⟩ := ih (p.getD ph) (n := n) (by omega)
        refine ⟨k + 1, ph', ?_⟩
        show (play a bl (p.getD ph) ms (List.replicate n 0 ++ c :: rest)).cons (.w a (w.word bl) .ok) = _
        rw [hplay]
        rfl

/-- R92, R147. -/
theorem phaseAfterAbort_eq {s : State} {i : Instr} {k : Nat} (hu : s.useq = .running i k) :
    s.phaseAfterAbort = phaseFailed i s.phase := by
  rw [State.phaseAfterAbort, hu]
  cases i <;> rfl

/-- Only INIT leaves another phase behind when it fails than it found. -/
theorem phaseFailed_play (i : Instr) (a : Byte) (bl : Bool) (ph : Phase) (as : List (BitVec 2)) :
    phaseFailed i (play a bl ph (eventList i) as).phase = phaseFailed i ph := by
  cases hi : i.isInit with
  | true =>
    obtain ⟨a, rfl⟩ := exists_eq_init hi
    rfl
  | false =>
    have hphase : (play a bl ph (eventList i) as).phase = ph := by
      rw [play_phase]
      exact phaseAfter_take_drop hi ph 0 _
    rw [hphase]

theorem resume_of_failed {s : State} {i : Instr} {p : Play} {st : Status} (hu : s.useq = .running i 0)
    (hp : play s.addr s.bl s.phase (eventList i) s.answers = p) (he : p.ending = .failed st) :
    s.resume = (s.played p).busError st := by
  have hr : s.remaining = eventList i := by rw [State.remaining, hu]; rfl
  have hplay : s.afterPlay p = (s.played p).busError st := by rw [State.afterPlay, he]
  have hplayed : (s.played p).useq = .running i (0 + p.count) := by rw [State.played, hu]; rfl
  rw [resume_eq_play, hr, hp, hplay]
  exact State.finish_idle _ (restsIn_busError st hplayed).busy

/-- R81, R146, R147, R149: a permitted request whose write `n` is answered with an error. -/
theorem serve_permitted_fails {i : Instr} {s : State} {n : Nat} {c : BitVec 2} {rest : List (BitVec 2)}
    (hp : permitted s i = true) (hn : n < writeCount i) (hc : TxResult.ofCode c ≠ .ok)
    (ha : s.answers = List.replicate n 0 ++ c :: rest) :
    serve i s =
      { responded (TxResult.ofCode c).status
          (failAt n (TxResult.ofCode c) (requestTrace (setUp i s).addr (setUp i s).bl i)) rest (setUp i s) with
        phase := phaseFailed i s.phase } := by
  have hr : i.isRequest = true := isRequest_of_permitted hp
  obtain ⟨hans, -, -, -⟩ := setUp_ports i s
  rw [← writesOf_eventList hr] at hn
  obtain ⟨k, ph', hplay⟩ := play_fails (setUp i s).addr (setUp i s).bl (setUp i s).phase rest hn hc
  have hphase := phaseFailed_play i (setUp i s).addr (setUp i s).bl (setUp i s).phase (List.replicate n 0 ++ c :: rest)
  rw [hplay, setUp_phase] at hphase
  rw [← ha, ← hans, ← requestTrace_eq_okTrace hp] at hplay
  rw [serve_permitted hp, resume_of_failed (s := (setUp i s).accept i) rfl hplay rfl,
    State.busError_request _ (s := ((setUp i s).accept i).played _) rfl hr,
    phaseAfterAbort_eq (s := ((setUp i s).accept i).played _) rfl, ← hphase]
  rfl

/-! ## PRINT with a bus error -/

theorem TxResult.status_ne_ok {r : TxResult} (h : r ≠ .ok) : r.status ≠ .ok := by
  cases r with
  | ok => exact absurd rfl h
  | unreachable => decide
  | ioFailure => decide

/-- The host, starting from `s`, has stopped in `t` at the bus write `n`, whose answer became `st`; `rest` of the answers is
left. -/
structure StoppedAt (n : Nat) (st : Status) (rest : List (BitVec 2)) (s t : State) : Prop where
  busy : t.busy = false
  result : t.result = some st
  answers : t.answers = rest
  todo : t.todo = []
  writes : ∃ tr, t.out = s.out ++ tr ∧ (busWords tr).length = n + 1

section
variable {i : Instr} {s : State} (hp : permitted s i = true)
include hp

theorem stoppedAt_first {n : Nat} {c : BitVec 2} {rest : List (BitVec 2)} (hn : n < writeCount i)
    (hc : TxResult.ofCode c ≠ .ok) (ha : s.answers = List.replicate n 0 ++ c :: rest) (l : List Instr) :
    StoppedAt n (TxResult.ofCode c).status rest s (runTodo (i :: l) s) := by
  have hserve := serve_permitted_fails hp hn hc ha
  have hstops : runTodo (i :: l) s = { serve i s with todo := [] } :=
    runTodo_cons_stops (isRequest_of_permitted hp) l (by rw [hserve]; rfl)
      (by rw [hserve]; exact mt Option.some.inj (TxResult.status_ne_ok hc))
  obtain ⟨-, hout, -, -⟩ := setUp_ports i s
  rw [hstops, hserve]
  refine ⟨rfl, rfl, rfl, rfl, failAt n (TxResult.ofCode c) (requestTrace (setUp i s).addr (setUp i s).bl i) ++
    [.resp (TxResult.ofCode c).status], ?_, ?_⟩
  · rw [← List.append_assoc, ← hout]
    rfl
  · rw [busWords_append, List.length_append, length_busWords_failAt _ (by rwa [length_busWords_requestTrace hp])]
    rfl

/-- Where the first request ends with Ok, its writes come before those of the others. -/
theorem StoppedAt.cons {n : Nat} {st : Status} {rest : List (BitVec 2)} {l : List Instr} (hb : (serve i s).busy = false)
    (hok : (serve i s).result = some .ok) (h : StoppedAt n st rest (serve i s) (runTodo l (serve i s))) :
    StoppedAt (writeCount i + n) st rest s (runTodo (i :: l) s) := by
  have hi := isRequest_of_permitted hp
  obtain ⟨tr, hout, hcount⟩ := h.writes
  rw [runTodo_cons_ok hi l hb hok]
  refine ⟨h.busy, h.result, h.answers, h.todo,
    requestTrace (setUp i s).addr (setUp i s).bl i ++ [.resp .ok] ++ tr, ?_, ?_⟩
  · rw [hout, (serve_ok hi hb hok).2, List.append_assoc]
  · simp [busWords, hcount, length_busWords_requestTrace hp, Nat.add_assoc]

end

/-- R106: requests of the host that are all permitted in `Configured` stop at the write that fails, be it one of the first
request or of a later one. -/
theorem stoppedAt_runTodo {l : List Instr} (hl : ∀ i ∈ l, ∀ t : State, t.phase = .configured → permitted t i = true)
    {n : Nat} {c : BitVec 2} {rest : List (BitVec 2)} (hc : TxResult.ofCode c ≠ .ok) {s : State} (hs : s.phase = .configured)
    (hn : n < writeCounts l) (ha : s.answers = List.replicate n 0 ++ c :: rest) :
    StoppedAt n (TxResult.ofCode c).status rest s (runTodo l s) := by
  induction l generalizing s n with
  | nil => cases hn
  | cons i l ih =>
    have hp := hl i List.mem_cons_self s hs
    by_cases hfirst : n < writeCount i
    · exact stoppedAt_first hp hfirst hc ha l
    · obtain ⟨m, rfl⟩ := Nat.exists_eq_add_of_le (Nat.not_lt.1 hfirst)
      rw [← List.replicate_append_replicate, List.append_assoc] at ha
      have hserve := serve_permitted_all_ok hp ha
      have hlater : m < writeCounts l := by rw [writeCounts_cons] at hn; omega
      have hstopped := ih (fun j hj => hl j (List.mem_cons_of_mem i hj))
        (serve_request_configured (isRequest_of_permitted hp) hs).1 hlater (by rw [hserve]; rfl)
      exact hstopped.cons hp (by rw [hserve]; rfl) (by rw [hserve]; rfl)

/-- In `Configured` every request of a PRINT in range is permitted. -/
theorem permitted_of_mem_print {text : List Byte} {col row : Byte} (hc : col.toNat ≤ 15) (hr : row.toNat ≤ 1)
    {i : Instr} (hi : i ∈ .setCursor col row :: text.map .putc) {t : State} (ht : t.phase = .configured) :
    permitted t i = true := by
  rcases List.mem_cons.1 hi with rfl | hi
  · exact permitted_setCursor_of_in_range ht hc hr
  · obtain ⟨c, -, rfl⟩ := List.mem_map.1 hi
    rw [permitted_putc, decide_eq_true ht]

/-- Settles O30: the host stops at the write that fails (`stoppedAt_runTodo`), and no request leaves `Configured`. -/
theorem printStopsAtTheFirstError : Obligations.PrintStopsAtTheFirstError := by
  intro text col row s n c rest hb hs hcol hrow _ hn hc ha
  rw [← writeCounts_print text col row] at hn
  have hpermitted : ∀ i ∈ .setCursor col row :: text.map .putc, ∀ t : State, t.phase = .configured → permitted t i = true :=
    fun i hi t ht => permitted_of_mem_print hcol hrow hi ht
  have h := stoppedAt_runTodo hpermitted hc hs hn ha
  have hphase := (runTodo_configured (fun i hi => isRequest_of_permitted (hpermitted i hi s hs)) hs).1
  obtain ⟨tr, hout, hcount⟩ := h.writes
  exact ⟨_, tr, exec_print text col row hb, h.busy, h.result, h.answers, h.todo, hphase, hout, hcount⟩

end Sys2Proof.Machine

/-! # The backlight operations and TEARDOWN

BACKLIGHT_ON and BACKLIGHT_OFF are `serve_permitted_all_ok` and `serve_refused` for one row each, and their one word has enable
low, so that the controller latches nothing. TEARDOWN is its CLEAR, and BACKLIGHT_OFF where that has ended with Ok. -/

namespace Sys2Proof.Machine

open Sys2Proof.Spec

/-! ## A backlight operation -/

/-- Settles O11: both are permitted in `Configured` and nowhere else, whatever `BL` was. -/
theorem backlightOperationsSetTheFlag : Obligations.BacklightOperationsSetTheFlag := by
  refine fun s c rest hb => ⟨fun hs ha hc => ?_, fun hs =>
    ⟨exec_refused rfl hb (decide_eq_false hs), exec_refused rfl hb (decide_eq_false hs)⟩⟩
  rw [eq_zero_of_ofCode_ok hc] at ha
  have hon : permitted s .backlightOn = true := decide_eq_true hs
  have hoff : permitted s .backlightOff = true := decide_eq_true hs
  rw [exec_idle _ s hb, exec_idle _ s hb, serve_permitted_all_ok hon ha, serve_permitted_all_ok hoff ha]
  exact ⟨rfl, rfl⟩

theorem Display.deliver_enable_low {d : Display} {w : Byte} (hd : d.pulse = .idle) (hw : enOf w = false) :
    d.deliver w = { d with pBl := some (blOf w), lastWord := some w } := by
  simp [Display.deliver, hd, hw]

/-- R61, R135: the backlight word has enable low, and its backlight bit is the backlight. -/
theorem onlyBacklight_deliver {d : Display} (hd : d.pulse = .idle) (bl : Bool) :
    OnlyBacklight bl (backlightWord bl) d (d.deliver (backlightWord bl)) := by
  have hlow : enOf (backlightWord bl) = false := by cases bl <;> rfl
  have hbl : blOf (backlightWord bl) = bl := by cases bl <;> rfl
  rw [Display.deliver_enable_low hd hlow, hbl, OnlyBacklight]

/-- Settles O56: the operations put their word on the ports, and its delivery is all that the observer and the peripheral see. -/
theorem backlightOperationsLatchNothing : Obligations.BacklightOperationsLatchNothing := by
  intro s c rest hb hs ha hc
  obtain ⟨hon, hoff⟩ := (backlightOperationsSetTheFlag s c rest hb).1 hs ha hc
  exact ⟨_, _, hon, hoff, fun hd => ⟨onlyBacklight_deliver hd true, onlyBacklight_deliver hd false⟩,
    fun hd => ⟨onlyBacklight_deliver hd true, onlyBacklight_deliver hd false⟩⟩

/-! ## TEARDOWN by its requests -/

/-- R115. -/
theorem exec_teardown {s : State} (hb : s.busy = false) : exec .teardown s = .next (runTodo [.clear, .backlightOff] s) := by
  rw [exec_idle _ s hb, serve_pseudo rfl, expand]

/-- After the last of its requests the host has nothing left to issue, whatever the status. -/
theorem runTodo_singleton {i : Instr} (hi : i.isRequest = true) {s : State} (hb : (serve i s).busy = false) :
    runTodo [i] s = { serve i s with todo := [] } := by
  rw [runTodo_cons hi, hb, State.hostNext, runTodo, ite_self]
  rfl

/-- If CLEAR does not end with Ok, BACKLIGHT_OFF is not issued. -/
theorem exec_teardown_stops {s : State} (hb : s.busy = false) (hidle : (serve .clear s).busy = false)
    (hfails : (serve .clear s).result ≠ some .ok) : exec .teardown s = .next { serve .clear s with todo := [] } := by
  rw [exec_teardown hb, runTodo_cons_stops rfl _ hidle hfails]

/-- The six writes of CLEAR answered Ok, it is BACKLIGHT_OFF that ends TEARDOWN. -/
theorem exec_teardown_goes_on {s : State} {as : List (BitVec 2)} (hb : s.busy = false) (hs : s.phase = .configured)
    (ha : s.answers = List.replicate 6 0 ++ as)
    (hidle : (serve .backlightOff (responded .ok (clearTrace s.addr s.bl) as s)).busy = false) :
    exec .teardown s =
      .next { serve .backlightOff (responded .ok (clearTrace s.addr s.bl) as s) with todo := [] } := by
  have hp : permitted s .clear = true := decide_eq_true hs
  have hclear : serve .clear s = responded .ok (clearTrace s.addr s.bl) as s := serve_permitted_all_ok hp ha
  have hgoes := runTodo_cons_ok (i := .clear) rfl [.backlightOff] (s := s) (by rw [hclear]; rfl) (by rw [hclear]; rfl)
  rw [exec_teardown hb, hgoes, hclear, runTodo_singleton rfl hidle]

/-- Settles O13: BACKLIGHT_OFF after CLEAR, in the phase and with the address that CLEAR has left. -/
theorem teardownClearsAndDarkens : Obligations.TeardownClearsAndDarkens := by
  intro s rest hb hs ha
  have hp : permitted (responded .ok (clearTrace s.addr s.bl) (0 :: rest) s) .backlightOff = true := decide_eq_true hs
  have hoff := serve_permitted_all_ok (rest := rest) hp rfl
  rw [exec_teardown_goes_on hb hs (as := 0 :: rest) ha (by rw [hoff]; rfl), hoff]
  simp [responded, setUp, requestTrace, backlightWord, phaseDone, Display.observeAll_append, Display.followAll_append]

/-! ## TEARDOWN that stops -/

/-- Settles O31: CLEAR is refused, or fails at one of its writes, or it is BACKLIGHT_OFF that fails, with `BL` written. -/
theorem teardownStopsAtTheFirstFailure : Obligations.TeardownStopsAtTheFirstFailure := by
  intro s hb
  refine ⟨fun hs => ?_, fun n c rest hs hn hc ha => ?_, fun c rest hs hc ha => ?_⟩
  · have hp : permitted s .clear = false := decide_eq_false hs
    have hclear : serve .clear s = violated s := by rw [serve_refused rfl hp, contractViolation_accept]
    rw [exec_teardown_stops hb (by rw [hclear]; rfl) (by rw [hclear]; exact fun h => nomatch h), hclear]
  · have hp : permitted s .clear = true := decide_eq_true hs
    have hclear := serve_permitted_fails hp hn hc ha
    have hfails := mt Option.some.inj (TxResult.status_ne_ok hc)
    rw [exec_teardown_stops hb (by rw [hclear]; rfl) (by rw [hclear]; exact hfails), hclear]
    rfl
  · have hp : permitted (responded .ok (clearTrace s.addr s.bl) (c :: rest) s) .backlightOff = true := decide_eq_true hs
    have hoff := serve_permitted_fails (n := 0) (rest := rest) hp Nat.one_pos hc rfl
    rw [exec_teardown_goes_on hb hs ha (by rw [hoff]; rfl), hoff]
    rfl

end Sys2Proof.Machine

/-! # The emitted values

A row that is no request is its event list, played (`serve_emitted_all_ok`); nothing of it is a register write. -/

namespace Sys2Proof.Machine

open Sys2Proof.Spec

/-- Settles O14: each row is one nibble write in command mode. -/
theorem handshakeNibblesAreSent : Obligations.HandshakeNibblesAreSent := by
  intro s rest hb ha
  rw [exec_idle _ s hb, exec_idle _ s hb, serve_emitted_all_ok rfl rfl ha, serve_emitted_all_ok rfl rfl ha]
  exact ⟨rfl, rfl⟩

/-- R60, R124: the address bits stand below the flag, so that OR-ing the flag adds it. -/
theorem setDdramByte_eq_add (addr7 : BitVec 7) :
    setDdramByte addr7 = Config.cmdSetDdram + BitVec.ofNat 8 addr7.toNat := by
  have hdisjoint : Config.cmdSetDdram &&& addr7.setWidth 8 = 0#8 := by
    rw [BitVec.setWidth_eq_append (by decide)]
    show (1#1 ++ 0#7) &&& (0#1 ++ addr7) = 0#8
    rw [BitVec.and_append, BitVec.and_zero, BitVec.zero_and]
    rfl
  rw [BitVec.ofNat_toNat, BitVec.add_eq_or_of_and_eq_zero _ _ hdisjoint, setDdramByte]

/-- Settles O15: each row is one byte write in its mode, for CMD_CLEAR with the wait after it. -/
theorem commandAndDataBytesAreSent : Obligations.CommandAndDataBytesAreSent := by
  intro addr7 code s rest hb ha
  have sends {i : Instr} (hp : i.isPseudo = false) (hr : i.isRequest = false) (hw : writesOf (eventList i) = 6) :
      exec i s = .next (sent (okTrace s.addr s.bl (eventList i)) rest s) := by
    rw [exec_idle i s hb, serve_emitted_all_ok hp hr (by rw [hw, ha])]
  rw [← setDdramByte_eq_add]
  exact ⟨sends rfl rfl rfl, sends rfl rfl rfl, sends rfl rfl rfl, sends rfl rfl rfl, sends rfl rfl rfl, sends rfl rfl rfl⟩

theorem State.busError_subOperation (st : Status) {s : State} {i : Instr} {k : Nat} (hu : s.useq = .running i k)
    (hr : i.isRequest = false) : s.busError st = { s with phase := s.phaseAfterAbort }.release st :=
  State.conclude_subOperation st { s with phase := s.phaseAfterAbort } i k hu hr

/-- Where no request is running, `REQ` and the counter of its free values are left alone: there is no response (R18; log 6). -/
theorem resume_req_of_not_request {s : State} {i : Instr} (hb : s.busy = true) (hu : s.useq = .running i 0)
    (hl : eventList i ≠ []) (hr : i.isRequest = false) : s.resume.req = s.req ∧ s.resume.freeIx = s.freeIx := by
  have hcases := s.resume_cases i 0 hb hu hl
  generalize play s.addr s.bl s.phase ((eventList i).drop 0) s.answers = p at hcases
  have hplayed : (s.played p).useq = .running i (0 + p.count) := by rw [State.played, hu]; rfl
  rcases hcases with ⟨x, -, h⟩ | ⟨-, h⟩ | ⟨st, -, h⟩
  · rw [h]
    exact ⟨rfl, rfl⟩
  · rw [h, State.conclude_subOperation _ _ i _ hplayed hr]
    exact ⟨rfl, rfl⟩
  · rw [h, State.busError_subOperation st hplayed hr]
    exact ⟨rfl, rfl⟩

/-- Settles O17: the registers are those that running an operation leaves alone, and the record grows as it always does. -/
theorem emittedValuesLeaveTheRegisters : Obligations.EmittedValuesLeaveTheRegisters := by
  intro i s hr hp hb
  have hne : eventList i ≠ [] := eventList_ne_nil hp (by rintro w rfl; cases hr)
  have hinit : i.isInit = false := isInit_eq_false (by rintro a rfl; cases hr)
  have hphase := resume_phase (s := s.begin i) rfl rfl hne hinit
  obtain ⟨haddr, hbl, hfault, htodo⟩ := sameRegisters_resume (s.begin i)
  obtain ⟨hreq, hfree⟩ := resume_req_of_not_request (s := s.begin i) rfl rfl hne hr
  obtain ⟨hinputs, hrecord, -⟩ := (grown_begin i s).trans (grown_resume (s.begin i))
  rw [exec_idle i s hb, serve_emitted hp hr]
  exact ⟨_, rfl, hphase, haddr, hbl, hfault, hreq, hfree, hinputs, htodo, hrecord⟩

end Sys2Proof.Machine

/-! # The memory of the display

The canonical form determines the list, and whatever happens on the ports keeps it: the cells stay, are forgotten, or take one
data byte at a 7-bit address. -/

namespace Sys2Proof.Machine

open Sys2Proof.Spec

/-! ## The canonical form determines the list -/

theorem Memory.risingFrom_cons {lower a : Nat} {x : Byte} {m : Memory} :
    Memory.risingFrom lower ((a, x) :: m) = true ↔ lower ≤ a ∧ m.risingFrom (a + 1) = true := by
  simp [Memory.risingFrom]

theorem Memory.read_cons_same (a : Nat) (x : Byte) (m : Memory) : Memory.read ((a, x) :: m) a = some x := if_pos rfl

theorem Memory.read_cons_other {a b : Nat} (h : a ≠ b) (x : Byte) (m : Memory) :
    Memory.read ((a, x) :: m) b = m.read b := if_neg h

/-- Nothing is listed below the first address. -/
theorem Memory.read_below {m : Memory} {lower a : Nat} (hm : m.risingFrom lower = true) (ha : a < lower) :
    m.read a = none := by
  induction m generalizing lower with
  | nil => rfl
  | cons c rest ih =>
    obtain ⟨b, y⟩ := c
    obtain ⟨hlower, hrest⟩ := Memory.risingFrom_cons.1 hm
    rw [Memory.read_cons_other (by omega), ih hrest (by omega)]

/-- The first address of a list with rising addresses is the least that can be read. -/
theorem Memory.first_le {a b : Nat} {x y : Byte} {m : Memory} (hm : m.risingFrom (b + 1) = true)
    (hread : Memory.read ((b, y) :: m) a = some x) : b ≤ a := by
  by_contra hlt
  rw [Memory.read_cons_other (by omega), Memory.read_below hm (by omega)] at hread
  cases hread

theorem Memory.eq_of_read {lower : Nat} {m m' : Memory} (hm : m.risingFrom lower = true) (hm' : m'.risingFrom lower = true)
    (h : ∀ a, m.read a = m'.read a) : m = m' := by
  induction m generalizing lower m' with
  | nil =>
    match m' with
    | [] => rfl
    | (b, y) :: rest' =>
      have hb := h b
      rw [Memory.read_cons_same] at hb
      cases hb
  | cons c rest ih =>
    obtain ⟨a, x⟩ := c
    have ha := h a
    rw [Memory.read_cons_same] at ha
    match m' with
    | [] => cases ha
    | (b, y) :: rest' =>
      obtain ⟨-, hrest⟩ := Memory.risingFrom_cons.1 hm
      obtain ⟨-, hrest'⟩ := Memory.risingFrom_cons.1 hm'
      have hb := h b
      rw [Memory.read_cons_same] at hb
      obtain rfl : a = b :=
        Nat.le_antisymm (Memory.first_le hrest hb) (Memory.first_le hrest' ha.symm)
      rw [Memory.read_cons_same] at ha
      obtain rfl := Option.some.inj ha
      have hrests : rest = rest' := ih hrest hrest' fun k => by
        by_cases hk : a = k
        · rw [Memory.read_below hrest (by omega), Memory.read_below hrest' (by omega)]
        · simpa [Memory.read_cons_other hk] using h k
      rw [hrests]

/-- Settles O60: the first cells are the same (`Memory.first_le`), and so on down the lists. -/
theorem canonicalMemoriesThatReadAlikeAreEqual : Obligations.CanonicalMemoriesThatReadAlikeAreEqual := by
  intro m m' hm hm'
  exact Memory.eq_of_read ((Bool.and_eq_true _ _).mp hm).1 ((Bool.and_eq_true _ _).mp hm').1

/-! ## What happens to the cells -/

/-- What an entry of the record can make of the known cells `m` (R134, R136). -/
inductive CellsAfter (m : Memory) : Memory → Prop
  | same : CellsAfter m m
  | forgotten : CellsAfter m []
  | written (a : BitVec 7) (x : Byte) : CellsAfter m (m.write a.toNat x)

theorem CellsAfter.wf {m m' : Memory} (h : CellsAfter m m') (hm : m.wf = true) : m'.wf = true := by
  cases h with
  | same => exact hm
  | forgotten => rfl
  | written a x => exact m.write_wf a.toNat x a.isLt hm

theorem Display.dataByte_cells (d : Display) (x : Byte) : CellsAfter d.cells (d.dataByte x).cells := by
  unfold Display.dataByte
  split
  next a _ => exact .written a x
  next => exact .forgotten

theorem Display.commandByte_cells (d : Display) (x : Byte) : CellsAfter d.cells (d.commandByte x).cells := by
  unfold Display.commandByte
  split
  · exact .forgotten
  split
  · exact .same
  split
  · exact .same
  split
  · exact .same
  split
  · exact .same
  · exact .forgotten

theorem Display.pair_cells (d : Display) (rs : Bool) (n : BitVec 4) : CellsAfter d.cells (d.pair rs n).cells := by
  unfold Display.pair
  split
  next => exact .same
  next h _ _ =>
    dsimp only
    split
    · exact Display.dataByte_cells { d with hiHalf := none, half := some .expectHigh } (h ++ n)
    · exact Display.commandByte_cells { d with hiHalf := none, half := some .expectHigh } (h ++ n)
  next => exact .forgotten

theorem Display.handshake_cells (d : Display) (rs : Bool) (n : BitVec 4) : CellsAfter d.cells (d.handshake rs n).cells := by
  unfold Display.handshake
  split_ifs
  · exact .same
  · exact .forgotten
  · exact .same

theorem Display.latch_cells (d : Display) (rs : Bool) (n : BitVec 4) : CellsAfter d.cells (d.latch rs n).cells := by
  unfold Display.latch
  split
  · exact d.handshake_cells rs n
  · exact d.handshake_cells rs n
  · split
    · exact d.pair_cells rs n
    · exact .forgotten

theorem Display.deliver_cells (d : Display) (w : Byte) : CellsAfter d.cells (d.deliver w).cells := by
  simp only [Display.deliver]
  split
  · exact .same
  · exact .same
  · exact .same
  · exact .same
  · exact Display.latch_cells { d with pBl := some (blOf w), lastWord := some w, pulse := .low } _ _
  · exact .forgotten
  · exact .forgotten
  · exact .forgotten

theorem Display.elapse_cells (d : Display) (t : Delay) : (d.elapse t).cells = d.cells := by
  cases t with
  | tPw | tPwFs3 =>
    simp only [Display.elapse, Display.hold]
    split <;> rfl
  | tClr =>
    simp only [Display.elapse]
    split <;> rfl
  | tFs1 | tFs2 | tFs3 | tPon => rfl

theorem Display.follow_cells (d : Display) (o : Out) : CellsAfter d.cells (d.follow o).cells := by
  cases o with
  | w a b r =>
    cases r with
    | ok => exact d.deliver_cells b
    | unreachable => exact .forgotten
    | ioFailure => exact .forgotten
  | d t =>
    rw [Display.follow, Display.elapse_cells]
    exact .same
  | hostWait t =>
    rw [Display.follow, Display.elapse_cells]
    exact .same
  | resp st => exact .same
  | handed a b => exact .forgotten
  | reset mid =>
    cases mid with
    | true => exact .forgotten
    | false => exact .same
  | power => exact .forgotten
  | foreign b => exact .forgotten

theorem Display.observe_cells (d : Display) (o : Out) : CellsAfter d.cells (d.observe o).cells := by
  unfold Display.observe
  split
  · exact .forgotten
  · exact d.follow_cells o

theorem Display.followAll_wf {d : Display} (h : d.cells.wf = true) (l : List Out) : (d.followAll l).cells.wf = true := by
  induction l generalizing d with
  | nil => exact h
  | cons o l ih => exact ih ((d.follow_cells o).wf h)

theorem Display.observeAll_wf {d : Display} (h : d.cells.wf = true) (l : List Out) : (d.observeAll l).cells.wf = true := by
  induction l generalizing d with
  | nil => exact h
  | cons o l ih => exact ih ((d.observe_cells o).wf h)

/-- Settles O59: a step lets the displays follow the record (`StepBy.recorded`), and no entry of it breaks the form. -/
theorem displayMemoryStaysCanonical : Obligations.DisplayMemoryStaysCanonical := by
  rintro s t ⟨hlcd, hpanel⟩ hstep
  obtain ⟨f, hf, rfl⟩ := step_next_iff.1 hstep
  obtain ⟨tr, -, hlcd', hpanel'⟩ := hf.recorded s
  rw [hlcd', hpanel']
  exact ⟨Display.observeAll_wf hlcd tr, Display.followAll_wf hpanel tr⟩

end Sys2Proof.Machine

/-! # A controller that is undefined

What leaves the controller undefined (R136), and that only a power cycle of the display, which no operation of the block puts
into the record, ends it (U2). -/

namespace Sys2Proof.Machine

open Sys2Proof.Spec

theorem silent_of_undefined {d : Display} (h : d.pUndef = some true) : Silent d := by
  obtain ⟨hhalf, hhi, hac, -, hcell⟩ := d.nothing_said h
  exact ⟨hhalf, hhi, hac, hcell⟩

theorem silent_of_lost {d : Display} (h : Lost d) : Silent d := silent_of_undefined h.1

/-! ## What leaves the controller undefined -/

/-- R136: a write that was not answered Ok may or may not have been delivered. -/
theorem lost_follow_failed (d : Display) (a b : Byte) {r : TxResult} (hr : r ≠ .ok) : Lost (d.follow (.w a b r)) := by
  cases r with
  | ok => exact absurd rfl hr
  | unreachable => exact ⟨rfl, rfl, rfl⟩
  | ioFailure => exact ⟨rfl, rfl, rfl⟩

/-- R81, R149: the write that fails is the last event. -/
theorem failAt_eq_append {n : Nat} (r : TxResult) {l : List Out} (hn : n < (busWords l).length) :
    ∃ pre a b, failAt n r l = pre ++ [.w a b r] := by
  induction l generalizing n with
  | nil => cases hn
  | cons o rest ih =>
    cases o with
    | w a b x =>
      cases n with
      | zero => exact ⟨[], a, b, rfl⟩
      | succ n =>
        obtain ⟨pre, a', b', h⟩ := ih (n := n) (Nat.lt_of_succ_lt_succ hn)
        exact ⟨.w a b x :: pre, a', b', by rw [List.cons_append, ← h]; rfl⟩
    | _ =>
      obtain ⟨pre, a', b', h⟩ := ih hn
      cases n <;> exact ⟨_, a', b', (congrArg (List.cons _) h).trans List.cons_append.symm⟩

theorem lost_failAt {n : Nat} {r : TxResult} (hr : r ≠ .ok) {l : List Out} (hn : n < (busWords l).length) (d p : Display) :
    Lost (d.observeAll (failAt n r l)) ∧ Lost (p.followAll (failAt n r l)) := by
  obtain ⟨pre, a, b, h⟩ := failAt_eq_append r hn
  rw [h, Display.observeAll_append, Display.followAll_append]
  exact ⟨lost_follow_failed _ a b hr, lost_follow_failed _ a b hr⟩

/-- A step that meets a word of a second writer records it, whether the block is idle or waits. -/
theorem step_foreignWrite {s : State} {b : Byte} {rest : List Input} (hs : s.inputs = .foreignWrite b :: rest) :
    step s = .next ({ s with inputs := rest }.emit (.foreign b)) := by
  by_cases hb : s.busy = true
  · exact (Takes.foreignWrite b).step_eq_of_asynchronous rfl hb hs
  · exact (Takes.foreignWrite b).step_eq (Bool.eq_false_iff.2 hb) hs

/-- Settles O57: the last event of a request that fails is the failing write, and a word of a second writer leaves the
controller undefined by definition. -/
theorem busErrorOrSecondWriterLeavesTheControllerUndefined :
    Obligations.BusErrorOrSecondWriterLeavesTheControllerUndefined := by
  refine ⟨fun i s n c rest hb hp hn hc ha => ?_, fun s b rest hs => ?_⟩
  · rw [exec_idle i s hb, serve_permitted_fails hp hn hc ha]
    rw [← length_busWords_requestTrace hp (setUp i s).addr (setUp i s).bl] at hn
    obtain ⟨hlcd, hpanel⟩ := lost_failAt hc hn (setUp i s).lcd (setUp i s).panel
    exact ⟨_, rfl, hlcd, silent_of_lost hlcd, hpanel, silent_of_lost hpanel⟩
  · have hlost (d : Display) : Lost (d.follow (.foreign b)) := ⟨rfl, rfl, rfl⟩
    exact ⟨_, step_foreignWrite hs, hlost s.lcd, silent_of_lost (hlost s.lcd), hlost s.panel, silent_of_lost (hlost s.panel)⟩

/-! ## The power cycle of the display is no event of the block -/

/-- `t` comes after `s` without a power cycle of the display. -/
def Unpowered (s t : State) : Prop := ∃ tr, t.out = s.out ++ tr ∧ Out.power ∉ tr

theorem Unpowered.of_out_eq {s t : State} (h : t.out = s.out) : Unpowered s t :=
  ⟨[], by rw [h, List.append_nil], List.not_mem_nil⟩

theorem Unpowered.of_one {s t : State} {o : Out} (h : t.out = s.out ++ [o]) (ho : Out.power ≠ o) : Unpowered s t :=
  ⟨[o], h, by simpa using ho⟩

theorem Unpowered.trans {s t u : State} (h : Unpowered s t) (h' : Unpowered t u) : Unpowered s u := by
  obtain ⟨tr, hout, htr⟩ := h
  obtain ⟨tr', hout', htr'⟩ := h'
  exact ⟨tr ++ tr', by rw [hout', hout, List.append_assoc], by simp [htr, htr']⟩

theorem unpowered_conclude (st : Status) (s : State) : Unpowered s (s.conclude st) := by
  rcases conclude_out st s with h | h
  · exact .of_out_eq h
  · exact .of_one h (by simp)

theorem power_notMem_play {addr : Byte} {bl : Bool} {ph : Phase} {l : List Micro} {as : List (BitVec 2)} :
    Out.power ∉ (play addr bl ph l as).out := by
  induction l generalizing ph as with
  | nil => exact List.not_mem_nil
  | cons m ms ih =>
    obtain ⟨ev, p⟩ := m
    cases ev with
    | wait t => simp [play, Play.cons, ih]
    | write w =>
      cases as with
      | nil => simp [play]
      | cons c cs => cases hc : TxResult.ofCode c <;> simp [play, Play.cons, hc, ih]

theorem unpowered_runEvents (l : List Micro) (s : State) : Unpowered s (runEvents l s) := by
  rw [runEvents_eq_play]
  have hplay : Out.power ∉ (play s.addr s.bl s.phase l s.answers).out := power_notMem_play
  generalize play s.addr s.bl s.phase l s.answers = p at hplay
  have hplayed : Unpowered s (s.played p) := ⟨p.out, rfl, hplay⟩
  unfold State.afterPlay
  split
  · exact hplayed
  · exact hplayed
  next st _ =>
    exact hplayed.trans (unpowered_conclude st { s.played p with phase := (s.played p).phaseAfterAbort })

theorem unpowered_finish (s : State) : Unpowered s s.finish := by
  unfold State.finish
  split
  · exact unpowered_conclude .ok s
  · exact .of_out_eq rfl

theorem unpowered_resume (s : State) : Unpowered s s.resume := (unpowered_runEvents _ s).trans (unpowered_finish _)

theorem unpowered_acceptRequest (i : Instr) (s : State) : Unpowered s (acceptRequest i s) := by
  rw [acceptRequest_eq]
  split
  · exact .of_out_eq (setUp_ports i s).2.1
  · split
    · exact .of_one (o := .resp .contractViolation) rfl (by simp)
    · exact .of_out_eq rfl

theorem unpowered_runTodo (l : List Instr) (s : State) : Unpowered s (runTodo l s) := by
  induction l generalizing s with
  | nil => exact .of_out_eq rfl
  | cons i rest ih =>
    have h := (unpowered_acceptRequest i s).trans (unpowered_resume _)
    simp only [runTodo]
    split
    · exact h.trans (.of_out_eq rfl)
    · split
      · exact h.trans (ih _)
      · exact h.trans (.of_out_eq rfl)

theorem unpowered_carryOn (s : State) : Unpowered s s.carryOn := by
  have h := unpowered_resume s
  rw [carryOn_eq_hostNext]
  split
  · exact h
  · unfold State.hostNext
    split
    · exact h.trans (unpowered_runTodo _ _)
    · exact h.trans (.of_out_eq rfl)

theorem unpowered_serve (i : Instr) (s : State) : Unpowered s (serve i s) := by
  unfold serve
  split
  · exact unpowered_runTodo _ s
  · split
    · exact (unpowered_acceptRequest i s).trans (unpowered_resume _)
    · exact (Unpowered.of_out_eq (s := s) (t := s.begin i) rfl).trans (unpowered_resume _)

theorem unpowered_blockReset (s : State) : Unpowered s s.blockReset := by
  have hdrop : Unpowered s s.dropHanded := by
    unfold State.dropHanded
    split
    · exact .of_one rfl (by simp)
    · exact .of_out_eq rfl
  exact hdrop.trans (.of_one (o := .reset s.busy) rfl (by simp))

theorem unpowered_cutRequest (i : Instr) (k : Nat) (s : State) : Unpowered s (s.cutRequest i k) := by
  have h : Unpowered s (runEvents ((acceptRequest i s).remaining.take k) (acceptRequest i s)) :=
    (unpowered_acceptRequest i s).trans (unpowered_runEvents _ _)
  refine Unpowered.trans ?_ (unpowered_blockReset _)
  split
  · exact h.trans (unpowered_finish _)
  · exact h

theorem Takes.unpowered {inp : Input} {f : State → State} (h : Takes inp f) (hp : inp ≠ .powerCycle) (s : State) :
    Unpowered s (f s) := by
  cases h with
  | word h => exact unpowered_serve _ s
  | print text col row => exact unpowered_serve _ s
  | teardown => exact unpowered_serve _ s
  | cut w k => exact unpowered_cutRequest _ k s
  | reset => exact unpowered_blockReset s
  | powerCycle => exact absurd rfl hp
  | foreignWrite b => exact .of_one rfl (by simp)
  | hostWait t => exact .of_one rfl (by simp)

theorem StepBy.unpowered {b : Bool} {l : List Input} {f : State → State} (h : StepBy b l f)
    (hp : ∀ rest, l ≠ .powerCycle :: rest) (s : State) : Unpowered s (f s) := by
  cases h with
  | rest => exact .of_out_eq rfl
  | take hf => exact hf.unpowered (by rintro rfl; exact hp _ rfl) { s with inputs := _ }
  | interrupt ha hf => exact hf.unpowered (by rintro rfl; exact hp _ rfl) { s with inputs := _ }
  | goOn ha => exact unpowered_carryOn s

theorem lost_followAll {d : Display} (h : Lost d) {l : List Out} (hl : Out.power ∉ l) : Lost (d.followAll l) := by
  induction l generalizing d with
  | nil => exact h
  | cons o l ih =>
    obtain ⟨ho, hl⟩ := not_or.1 (mt List.mem_cons.2 hl)
    exact ih (d.follow_lost o (Ne.symm ho) h) hl

theorem lost_observeAll {d : Display} (h : Lost d) {l : List Out} (hl : Out.power ∉ l) : Lost (d.observeAll l) := by
  induction l generalizing d with
  | nil => exact h
  | cons o l ih =>
    obtain ⟨ho, hl⟩ := not_or.1 (mt List.mem_cons.2 hl)
    exact ih (d.observe_lost o (Ne.symm ho) h) hl

/-- Settles O58: what a step adds to the record holds no power cycle (`StepBy.unpowered`), and nothing else ends the state. -/
theorem onlyAPowerCycleEndsTheUndefinedState : Obligations.OnlyAPowerCycleEndsTheUndefinedState := by
  intro s t hstep hp
  obtain ⟨f, hf, rfl⟩ := step_next_iff.1 hstep
  obtain ⟨tr, hout, hlcd, hpanel⟩ := hf.recorded s
  obtain ⟨tr', hout', htr⟩ := hf.unpowered hp s
  obtain rfl : tr = tr' := List.append_cancel_left (hout.symm.trans hout')
  rw [hlcd, hpanel]
  exact ⟨fun h => ⟨lost_observeAll h htr, silent_of_lost (lost_observeAll h htr)⟩,
    fun h => ⟨lost_followAll h htr, silent_of_lost (lost_followAll h htr)⟩⟩

end Sys2Proof.Machine

/-! # What the controller takes from a nibble pulse and a byte write

A pulse of R77 on a controller outside any other is one latch (R129), and a byte write (R79) on a controller at a byte boundary
is one completed byte (R132). The events of a request hold no reset, so that the
observer takes them as the peripheral does. -/

namespace Sys2Proof.Machine

open Sys2Proof.Spec

/-! ## The words of a pulse -/

/-- R57, R77: a word of a nibble write by its fields. -/
theorem or_control_eq_packWriteWord (n : BitVec 4) (bl data : Bool) :
    (n ++ 0#4) ||| control data bl = packWriteWord n bl false data := by
  have hbits : control data bl = controlBits bl false data := by
    revert bl data
    decide
  rw [packWriteWord_eq_or, hbits]

theorem or_control_enMask_eq_packWriteWord (n : BitVec 4) (bl data : Bool) :
    (n ++ 0#4) ||| control data bl ||| Config.enMask = packWriteWord n bl true data := by
  have hbits : control data bl ||| Config.enMask = controlBits bl true data := by
    revert bl data
    decide
  rw [packWriteWord_eq_or, ← hbits]
  exact BitVec.or_assoc _ _ _

@[simp] theorem enOf_packWriteWord (n : BitVec 4) (bl e rs : Bool) : enOf (packWriteWord n bl e rs) = e := by
  rw [enOf, hasBit_packWriteWord _ _ _ _ rfl]
  exact (hasBit_controlBits bl e rs).2.1

@[simp] theorem rsOf_packWriteWord (n : BitVec 4) (bl e rs : Bool) : rsOf (packWriteWord n bl e rs) = rs := by
  rw [rsOf, hasBit_packWriteWord _ _ _ _ rfl]
  exact (hasBit_controlBits bl e rs).2.2.1

@[simp] theorem blOf_packWriteWord (n : BitVec 4) (bl e rs : Bool) : blOf (packWriteWord n bl e rs) = bl := by
  rw [blOf, hasBit_packWriteWord _ _ _ _ rfl]
  exact (hasBit_controlBits bl e rs).1

/-- The five events of a nibble write by the fields of their words. -/
theorem pulse_eq (a : Byte) (bl data : Bool) (n : BitVec 4) (lowHold : Delay) :
    pulse a bl data (n ++ 0#4) lowHold =
      [.w a (packWriteWord n bl false data) .ok, .w a (packWriteWord n bl true data) .ok, .d .tPw,
       .w a (packWriteWord n bl false data) .ok, .d lowHold] := by
  rw [pulse, or_control_enMask_eq_packWriteWord, or_control_eq_packWriteWord]

/-- The low nibble of a byte (R58); the high one is `dataNibble`. -/
def lowNibble (x : Byte) : BitVec 4 := x.extractLsb' 0 4

theorem dataNibble_append_lowNibble (x : Byte) : dataNibble x ++ lowNibble x = x :=
  BitVec.extractLsb'_append_extractLsb' (w := 4) (len := 4)

theorem byte_eq (a : Byte) (bl data : Bool) (x : Byte) :
    byte a bl data x = pulse a bl data (dataNibble x ++ 0#4) .tPw ++ pulse a bl data (lowNibble x ++ 0#4) .tPw := by
  have hhi := hi_append (dataNibble x) (lowNibble x)
  have hlo := lo_append (dataNibble x) (lowNibble x)
  rw [dataNibble_append_lowNibble] at hhi hlo
  rw [← hhi, ← hlo]
  rfl

/-! ## A pulse is a latch -/

theorem Display.dataByte_hold (d : Display) (x : Byte) :
    ({ d with pulse := .low }.dataByte x).hold = { d with pulse := .idle }.dataByte x := by
  simp only [Display.dataByte]
  cases d.ac <;> rfl

theorem Display.commandByte_hold (d : Display) (x : Byte) :
    ({ d with pulse := .low }.commandByte x).hold = { d with pulse := .idle }.commandByte x := by
  unfold Display.commandByte
  split_ifs <;> rfl

theorem Display.pair_hold (d : Display) (rs : Bool) (n : BitVec 4) :
    ({ d with pulse := .low }.pair rs n).hold = { d with pulse := .idle }.pair rs n := by
  simp only [Display.pair]
  split
  · rfl
  next h _ _ =>
    split
    · exact Display.dataByte_hold { d with hiHalf := none, half := some .expectHigh } (h ++ n)
    · exact Display.commandByte_hold { d with hiHalf := none, half := some .expectHigh } (h ++ n)
  · rfl

theorem Display.handshake_hold (d : Display) (rs : Bool) (n : BitVec 4) :
    ({ d with pulse := .low }.handshake rs n).hold = { d with pulse := .idle }.handshake rs n := by
  unfold Display.handshake
  split
  · rfl
  split
  · rfl
  · rfl

/-- The low hold ends the pulse, whatever the latch was (R130). -/
theorem Display.latch_hold (d : Display) (rs : Bool) (n : BitVec 4) :
    ({ d with pulse := .low }.latch rs n).hold = { d with pulse := .idle }.latch rs n := by
  simp only [Display.latch]
  split
  · exact d.handshake_hold rs n
  · exact d.handshake_hold rs n
  · split
    · exact d.pair_hold rs n
    · rfl

/-- The display after the first word of a nibble pulse has reached it again, without what the controller made of the pulse. -/
def Display.onBus (d : Display) (bl data : Bool) (n : BitVec 4) : Display :=
  { d with pBl := some bl, lastWord := some (packWriteWord n bl false data) }

theorem Display.deliver_rise {d : Display} {w : Byte} (hd : d.pulse = .idle) (hw : enOf w = true) :
    d.deliver w = { d with pBl := some (blOf w), lastWord := some w, pulse := .high } := by
  simp [Display.deliver, hd, hw]

theorem Display.deliver_fall {d : Display} {v w : Byte} (hd : d.pulse = .highHeld) (hv : d.lastWord = some v)
    (hw : enOf w = false) :
    d.deliver w = { d with pBl := some (blOf w), lastWord := some w, pulse := .low }.latch (rsOf v) (dataNibble v) := by
  simp [Display.deliver, hd, hv, hw]

/-- R129, R130: a whole pulse with both holds is one latch of its nibble, in its mode. -/
theorem followAll_pulse {d : Display} (hd : d.pulse = .idle) (a : Byte) (bl data : Bool) (n : BitVec 4) {lowHold : Delay}
    (hhold : lowHold = .tPw ∨ lowHold = .tPwFs3) :
    d.followAll (pulse a bl data (n ++ 0#4) lowHold) = (d.onBus bl data n).latch data n := by
  have hlow : ∀ e : Display, e.follow (.d lowHold) = e.hold := by rcases hhold with rfl | rfl <;> exact fun _ => rfl
  have hsetUp : d.follow (.w a (packWriteWord n bl false data) .ok) = d.onBus bl data n := by
    rw [Display.follow, Display.deliver_enable_low hd (by simp), blOf_packWriteWord, Display.onBus]
  have hrise : (d.onBus bl data n).follow (.w a (packWriteWord n bl true data) .ok) =
      { d with pBl := some bl, lastWord := some (packWriteWord n bl true data), pulse := .high } := by
    rw [Display.follow, Display.deliver_rise (d := d.onBus bl data n) hd (enOf_packWriteWord _ _ _ _), blOf_packWriteWord]
    rfl
  have hheld : { d with pBl := some bl, lastWord := some (packWriteWord n bl true data), pulse := .high }.follow (.d .tPw) =
      { d with pBl := some bl, lastWord := some (packWriteWord n bl true data), pulse := .highHeld } := rfl
  rw [pulse_eq]
  simp only [Display.followAll_cons, Display.followAll_nil, hsetUp, hrise, hheld, hlow]
  rw [Display.follow, Display.deliver_fall rfl rfl (by simp), blOf_packWriteWord, rsOf_packWriteWord,
    dataNibble_packWriteWord]
  refine (Display.latch_hold { d with pBl := some bl, lastWord := some (packWriteWord n bl false data) } data n).trans ?_
  rw [Display.onBus, ← hd]

/-! ## A byte write is a byte -/

/-- A controller in 4-bit mode at a byte boundary, not busy, outside any pulse, whether or not anything is said of it (R136). -/
structure Aligned (d : Display) : Prop where
  pIf : d.pIf = .fourBit
  half : d.half = some .expectHigh
  pBusy : d.pBusy = some false
  pulse : d.pulse = .idle

/-- The display after a byte write, without what the controller made of the byte. -/
def Display.onByte (d : Display) (bl data : Bool) (x : Byte) : Display :=
  { d.onBus bl data (lowNibble x) with hiHalf := none, half := some .expectHigh }

/-- A completed byte in its mode, R132. -/
def Display.byteDone (d : Display) (data : Bool) (x : Byte) : Display := if data then d.dataByte x else d.commandByte x

/-- The display between the two nibbles of a byte. -/
def Display.highTaken (d : Display) (n : BitVec 4) : Display := { d with hiHalf := some n, half := some .expectLow }

theorem latch_high {d : Display} (hd : Aligned d) (rs : Bool) (n : BitVec 4) :
    d.latch rs n = d.highTaken n := by
  obtain ⟨hif, hhalf, hbusy, -⟩ := hd
  simp [Display.latch, Display.pair, Display.highTaken, hif, hbusy, hhalf]

theorem latch_low {d : Display} (hif : d.pIf = .fourBit) (hbusy : d.pBusy = some false) (hhalf : d.half = some .expectLow)
    {h : BitVec 4} (hhi : d.hiHalf = some h) (rs : Bool) (n : BitVec 4) :
    d.latch rs n = { d with hiHalf := none, half := some .expectHigh }.byteDone rs (h ++ n) := by
  simp [Display.latch, Display.pair, Display.byteDone, hif, hbusy, hhalf, hhi]

/-- R132: the two nibbles of a byte write are paired to its byte. -/
theorem followAll_byte {d : Display} (hd : Aligned d) (a : Byte) (bl data : Bool) (x : Byte) :
    d.followAll (byte a bl data x) = (d.onByte bl data x).byteDone data x := by
  have hhigh : Aligned (d.onBus bl data (dataNibble x)) := ⟨hd.pIf, hd.half, hd.pBusy, hd.pulse⟩
  rw [byte_eq, Display.followAll_append, followAll_pulse hd.pulse a bl data _ (.inl rfl), latch_high hhigh,
    followAll_pulse (d := (d.onBus bl data (dataNibble x)).highTaken (dataNibble x)) hd.pulse a bl data _ (.inl rfl),
    latch_low (d := ((d.onBus bl data (dataNibble x)).highTaken (dataNibble x)).onBus bl data (lowNibble x)) hd.pIf hd.pBusy
      rfl rfl, dataNibble_append_lowNibble]
  rfl

/-! ## The observer of a record without resets -/

/-- Is the entry an event of the block that has completed: a bus write answered Ok, or a wait (R5, R83)? -/
def Out.isEvent : Out → Bool
  | .w _ _ .ok | .d _ => true
  | .w _ _ .unreachable | .w _ _ .ioFailure => false
  | .resp _ | .handed _ _ | .reset _ | .power | .foreign _ | .hostWait _ => false

theorem isReset_of_isEvent {o : Out} (h : o.isEvent = true) : o.isReset = false := by
  cases o with
  | reset mid => cases h
  | _ => rfl

/-- Only a reset of the block tells the observer from the peripheral. -/
theorem observeAll_eq_followAll (d : Display) {l : List Out} (hl : ∀ o ∈ l, o.isEvent = true) :
    d.observeAll l = d.followAll l := by
  induction l generalizing d with
  | nil => rfl
  | cons o l ih =>
    rw [Display.observeAll_cons, d.observe_eq_follow o (isReset_of_isEvent (hl o List.mem_cons_self)),
      ih _ fun p hp => hl p (List.mem_cons_of_mem o hp), Display.followAll_cons]

/-- The trace of a request is its events. -/
theorem isEvent_requestTrace (a : Byte) (bl : Bool) (i : Instr) : ∀ o ∈ requestTrace a bl i, o.isEvent = true := by
  have h : (requestTrace a bl i).all Out.isEvent = true := by cases i <;> rfl
  exact List.all_eq_true.1 h

theorem observeAll_requestTrace (d : Display) (a : Byte) (bl : Bool) (i : Instr) :
    d.observeAll (requestTrace a bl i) = d.followAll (requestTrace a bl i) :=
  observeAll_eq_followAll d (isEvent_requestTrace a bl i)

end Sys2Proof.Machine

/-! # CLEAR, SET_CURSOR and PUTC on a tracked display

What the commands make of a display in 4-bit mode at a byte boundary: their bytes (`followAll_byte`) and the effect of each. -/

namespace Sys2Proof.Machine

open Sys2Proof.Spec

/-! ## What is said of a display -/

/-- R136: where something is said, it is what has been followed. -/
theorem Display.pHalf_eq {d : Display} (hu : d.pUndef ≠ some true) : d.pHalf = d.half := (d.all_said hu).1

theorem Display.pAc_eq {d : Display} (hu : d.pUndef ≠ some true) : d.pAc = d.ac := by
  obtain ⟨-, -, hac, -⟩ := d.all_said hu
  exact hac

theorem Display.pDdram_eq {d : Display} (hu : d.pUndef ≠ some true) : d.pDdram = d.cells := by
  obtain ⟨-, -, -, hcells⟩ := d.all_said hu
  exact hcells

/-- `Tracked` says that the controller is at a byte boundary, and that something is said of it. -/
theorem tracked_iff {d : Display} :
    Tracked d ↔ Aligned d ∧ d.pUndef ≠ some true ∧ d.entryMode = some Config.cmdEntryMode := by
  constructor
  · rintro ⟨hif, hhalf, hbusy, hpulse, hentry⟩
    have hu : d.pUndef ≠ some true := fun h => by
      rw [(d.nothing_said h).1] at hhalf
      cases hhalf
    exact ⟨⟨hif, Display.pHalf_eq hu ▸ hhalf, hbusy, hpulse⟩, hu, hentry⟩
  · rintro ⟨⟨hif, hhalf, hbusy, hpulse⟩, hu, hentry⟩
    exact ⟨hif, (Display.pHalf_eq hu).trans hhalf, hbusy, hpulse, hentry⟩

theorem Display.cell_eq_code {d : Display} (hu : d.pUndef ≠ some true) {a : Nat} {c : Byte} (h : d.cells.read a = some c) :
    d.cell a = .code c := by
  rw [Display.cell, Display.pDdram_eq hu, h]

theorem Display.cell_eq_blank {d : Display} (hu : d.pUndef ≠ some true) {a : Nat} (h : d.cells.read a = none)
    (hb : d.blanked = true) (ha : shownAddress a = true) : d.cell a = .blank := by
  rw [Display.cell, Display.pDdram_eq hu, h]
  simp [Display.isUndefined, hu, hb, ha]

/-- What a cell is known to hold depends on `p_undef`, the codes known and what is known blank. -/
theorem Display.cell_congr {d d' : Display} {a : Nat} (hu : d'.pUndef = d.pUndef) (h : d'.cells.read a = d.cells.read a)
    (hb : d'.blanked = d.blanked) : d'.cell a = d.cell a := by
  have hundef : d'.isUndefined = d.isUndefined := by rw [Display.isUndefined, Display.isUndefined, hu]
  have hread : d'.pDdram.read a = d.pDdram.read a := by
    rw [Display.pDdram, Display.pDdram, hundef]
    split
    · rfl
    · exact h
  rw [Display.cell, Display.cell, hread, hundef, hb]

/-- R42: a place of line 0 or 1 is shown. -/
theorem shownAddress_ddram {col row : Byte} (hc : col.toNat ≤ 15) (hr : row.toNat ≤ 1) :
    shownAddress (ddram col row) = true := by
  rw [ddram_eq hr]
  simp only [shownAddress, Bool.or_eq_true, Bool.and_eq_true, decide_eq_true_eq]
  omega

/-- R134: when nothing but blanks is known, every place shown is blank. -/
theorem shown_blank {d : Display} (hu : d.pUndef ≠ some true) (hcells : d.cells = []) (hb : d.blanked = true)
    {col row : Byte} (hc : col.toNat ≤ 15) (hr : row.toNat ≤ 1) : d.shown col row = .blank :=
  Display.cell_eq_blank hu (by rw [hcells]; rfl) hb (shownAddress_ddram hc hr)

/-! ## CLEAR -/

/-- The display after a clear that has been executed (R133, R134), if it was `d`. -/
def Display.cleared (d : Display) : Display := { d with pBusy := some false, cells := [], blanked := true, ac := none }

/-- R133: the clear command makes the controller busy, and the wait ends that. -/
theorem followAll_clear {d : Display} (hd : Aligned d) (a : Byte) (bl : Bool) :
    d.followAll (clearTrace a bl) = (d.onByte bl false Config.cmdClear).cleared := by
  rw [clearTrace, Display.followAll_append, followAll_byte hd]
  rfl

theorem cleared_followAll_clear {d : Display} (hd : Tracked d) (a : Byte) (bl : Bool) :
    Cleared (d.followAll (clearTrace a bl)) := by
  obtain ⟨haligned, hu, hentry⟩ := tracked_iff.1 hd
  have hsaid : (d.onByte bl false Config.cmdClear).cleared.pUndef ≠ some true := hu
  rw [followAll_clear haligned]
  exact ⟨tracked_iff.2 ⟨⟨haligned.pIf, rfl, rfl, haligned.pulse⟩, hsaid, hentry⟩, Display.pAc_eq hsaid,
    fun col row hc hr => shown_blank hsaid rfl rfl hc hr⟩

/-- Settles O55: the observer and the peripheral follow the trace of CLEAR. -/
theorem clearBlanksTheDisplay : Obligations.ClearBlanksTheDisplay := by
  intro s rest hb hs ha
  have hlcd : s.lcd.observeAll (clearTrace s.addr s.bl) = s.lcd.followAll (clearTrace s.addr s.bl) :=
    observeAll_requestTrace s.lcd s.addr s.bl .clear
  refine ⟨_, (clearSendsTheCommandAndWaits s rest hb).1 hs ha, fun hd => ?_, fun hd => cleared_followAll_clear hd _ _⟩
  show Cleared (s.lcd.observeAll (clearTrace s.addr s.bl))
  rw [hlcd]
  exact cleared_followAll_clear hd _ _

/-! ## A character at the cursor -/

/-- R60, R124: the command byte has the flag and the address, as the decoder reads them. -/
theorem setDdramByte_fields (addr7 : BitVec 7) :
    hasBit (setDdramByte addr7) Config.cmdSetDdram = true ∧ (setDdramByte addr7).extractLsb' 0 7 = addr7 := by
  have h := decodeCommand_setDdramByte addr7
  unfold decodeCommand at h
  split at h
  · cases h
  split at h
  · cases h
  split at h
  · cases h
  split at h
  · cases h
  split at h
  next hflag => exact ⟨hflag, Instr.cmdSetDdram.inj (Except.ok.inj h)⟩
  next => cases h

theorem Display.commandByte_setDdram (d : Display) (addr7 : BitVec 7) :
    d.commandByte (setDdramByte addr7) = { d with ac := some addr7 } := by
  obtain ⟨hflag, haddr⟩ := setDdramByte_fields addr7
  have hclear : setDdramByte addr7 ≠ Config.cmdClear := fun h => absurd (h ▸ hflag) (by decide)
  rw [Display.commandByte, if_neg hclear, if_pos hflag, haddr]

/-- The DDRAM address of a place, R60. -/
def cursorAddress (col row : Byte) : BitVec 7 := BitVec.ofNat 7 (row.toNat * 0x40 + col.toNat)

theorem toNat_cursorAddress {col row : Byte} (hc : col.toNat ≤ 15) (hr : row.toNat ≤ 1) :
    (cursorAddress col row).toNat = row.toNat * 0x40 + col.toNat := by
  rw [cursorAddress, BitVec.toNat_ofNat]
  exact Nat.mod_eq_of_lt (by omega)

theorem cursorByte_eq_setDdramByte {col row : Byte} (hc : col.toNat ≤ 15) (hr : row.toNat ≤ 1) :
    cursorByte col row = setDdramByte (cursorAddress col row) := by
  rw [setDdramByte_eq_add, toNat_cursorAddress hc hr, cursorByte]

/-- The display with a byte stored in a cell (R134), and the counter where it is then. -/
def Display.stored (d : Display) (a : Nat) (code : Byte) (ac : Option (BitVec 7)) : Display :=
  { d with cells := d.cells.write a code, ac := ac }

/-- The trace of SET_CURSOR and PUTC on a display at a byte boundary: the code goes to the cell of the place (R134). -/
theorem followAll_character {d : Display} (hd : Aligned d) {col row : Byte} (hc : col.toNat ≤ 15) (hr : row.toNat ≤ 1)
    (a : Byte) (bl : Bool) (code : Byte) :
    (d.followAll (byte a bl false (cursorByte col row))).followAll (byte a bl true code) =
      (d.onByte bl true code).stored (row.toNat * 0x40 + col.toNat) code (d.nextAc (cursorAddress col row)) := by
  have hset : d.followAll (byte a bl false (cursorByte col row)) =
      { d.onByte bl false (cursorByte col row) with ac := some (cursorAddress col row) } := by
    rw [followAll_byte hd, cursorByte_eq_setDdramByte hc hr]
    exact Display.commandByte_setDdram _ _
  have haligned : Aligned { d.onByte bl false (cursorByte col row) with ac := some (cursorAddress col row) } :=
    ⟨hd.pIf, rfl, hd.pBusy, hd.pulse⟩
  rw [hset, followAll_byte haligned, ← toNat_cursorAddress hc hr]
  rfl

/-- R134: inside a row the counter moves on; at its end it is not known (U6). -/
theorem nextAc_cursorAddress {d : Display} (hd : d.entryMode = some Config.cmdEntryMode) {col row : Byte}
    (hc : col.toNat ≤ 15) (hr : row.toNat ≤ 1) :
    d.nextAc (cursorAddress col row) =
      if col.toNat < 15 then some (BitVec.ofNat 7 (row.toNat * 0x40 + col.toNat + 1)) else none := by
  have hinside : (shownAddress (row.toNat * 0x40 + col.toNat) && shownAddress (row.toNat * 0x40 + col.toNat + 1)) = true ↔
      col.toNat < 15 := by
    simp only [shownAddress, Bool.or_eq_true, Bool.and_eq_true, decide_eq_true_eq]
    omega
  have hnext : cursorAddress col row + 1 = BitVec.ofNat 7 (row.toNat * 0x40 + col.toNat + 1) :=
    (BitVec.ofNat_add _ _).symm
  simp only [Display.nextAc, toNat_cursorAddress hc hr, hd, decide_true, Bool.true_and, hinside, hnext]

theorem landed_followAll_character {d : Display} (hd : Tracked d) {col row : Byte} (hc : col.toNat ≤ 15)
    (hr : row.toNat ≤ 1) (a : Byte) (bl : Bool) (code : Byte) :
    Landed col row code d ((d.followAll (byte a bl false (cursorByte col row))).followAll (byte a bl true code)) := by
  obtain ⟨haligned, hu, hentry⟩ := tracked_iff.1 hd
  have hsaid (m : Nat) (ac : Option (BitVec 7)) : ((d.onByte bl true code).stored m code ac).pUndef ≠ some true := hu
  rw [followAll_character haligned hc hr, nextAc_cursorAddress hentry hc hr]
  refine ⟨tracked_iff.2 ⟨⟨haligned.pIf, rfl, haligned.pBusy, haligned.pulse⟩, hsaid _ _, hentry⟩, ?_, fun b hb => ?_,
    fun hlt => ?_, fun hend => ?_⟩
  · rw [Display.shown, ddram_eq hr]
    exact Display.cell_eq_code (hsaid _ _) (Memory.read_write_same _ _ _)
  · exact Display.cell_congr rfl (Memory.read_write_other _ _ _ _ hb) rfl
  · exact (Display.pAc_eq (hsaid _ _)).trans (if_pos hlt)
  · exact (Display.pAc_eq (hsaid _ _)).trans (if_neg (by omega))

/-- Settles O54: the observer and the peripheral follow the two traces. -/
theorem characterLandsAtTheCursor : Obligations.CharacterLandsAtTheCursor := by
  intro col row code s rest hb hs hc hr _ ha
  rw [show 12 = 6 + 6 from rfl, ← List.replicate_append_replicate, List.append_assoc] at ha
  have hset := (setCursorSendsTheAddress col row s (List.replicate 6 0 ++ rest) hb).1 hs hc hr ha
  have hput := (putcSendsTheCode code (responded .ok (byte s.addr s.bl false (cursorByte col row))
    (List.replicate 6 0 ++ rest) s) rest rfl).1 hs rfl
  have hlcd : (s.lcd.observeAll (byte s.addr s.bl false (cursorByte col row))).observeAll (byte s.addr s.bl true code) =
      (s.lcd.followAll (byte s.addr s.bl false (cursorByte col row))).followAll (byte s.addr s.bl true code) := by
    rw [← Display.observeAll_append, ← Display.followAll_append]
    refine observeAll_eq_followAll _ fun o ho => ?_
    rcases List.mem_append.1 ho with ho | ho
    · exact isEvent_requestTrace _ _ (.setCursor col row) o ho
    · exact isEvent_requestTrace _ _ (.putc code) o ho
  refine ⟨_, (execAll_cons hset _).trans (execAll_cons hput _), fun hd => ?_,
    fun hd => landed_followAll_character hd hc hr _ _ _⟩
  show Landed col row code s.lcd
    ((s.lcd.observeAll (byte s.addr s.bl false (cursorByte col row))).observeAll (byte s.addr s.bl true code))
  rw [hlcd]
  exact landed_followAll_character hd hc hr _ _ _

end Sys2Proof.Machine

/-! # INIT on a display after a power cycle

The handshake locks the 4-bit interface (R131), the configuration bytes leave a blank display that is ready, and the last of them
ends `p_undef` (R136): not before its low nibble has been latched. -/

namespace Sys2Proof.Machine

open Sys2Proof.Spec

/-! ## The handshake -/

/-- The events of stages 1 and 2 of INIT, R88, R89. -/
def handshakeTrace (a : Byte) (bl : Bool) : List Out :=
  pulse a bl false Config.nibFs8 .tPw ++ .d .tFs1 :: (pulse a bl false Config.nibFs8 .tPw ++ .d .tFs2 ::
    (pulse a bl false Config.nibFs8 .tPwFs3 ++ pulse a bl false Config.nibFs4 .tPw))

/-- The events of stage 3 of INIT, R90, R91. -/
def configurationTrace (a : Byte) (bl : Bool) : List Out :=
  byte a bl false Config.cmdFunctionSet ++ (byte a bl false Config.cmdDisplayCtrl ++
    (clearTrace a bl ++ byte a bl false Config.cmdEntryMode))

theorem initTrace_eq (a : Byte) (bl : Bool) : initTrace a bl = handshakeTrace a bl ++ configurationTrace a bl := rfl

/-- A display that has latched a nibble in command mode before the lock (R131). -/
def Display.remembered (d : Display) (n : BitVec 4) : Display :=
  { d with recent := ({ rs := false, nibble := n } :: d.recent).take 3 }

/-- A latch of the handshake before its last, on a display that waits for INIT. -/
theorem followAll_nibFs8 {d : Display} (hd : AwaitsInit d) (a : Byte) (bl : Bool) {lowHold : Delay}
    (hhold : lowHold = .tPw ∨ lowHold = .tPwFs3) :
    d.followAll (pulse a bl false Config.nibFs8 lowHold) = (d.onBus bl false 3#4).remembered 3#4 := by
  obtain ⟨hif, hcycled, hpon, hpulse⟩ := hd
  calc d.followAll (pulse a bl false (3#4 ++ 0#4) lowHold)
      = (d.onBus bl false 3#4).latch false 3#4 := followAll_pulse hpulse a bl false 3#4 hhold
    _ = (d.onBus bl false 3#4).handshake false 3#4 := Display.latch_beforeLock _ _ _ hif
    _ = (d.onBus bl false 3#4).remembered 3#4 :=
        Display.handshake_remembers _ _ _ hcycled hpon (.inr (.inl (by decide)))

/-- The last latch of the handshake locks the interface. -/
theorem followAll_nibFs4 {d : Display} (hd : AwaitsInit d) (hseen : stage1Seen d.recent = true) (a : Byte) (bl : Bool) :
    d.followAll (pulse a bl false Config.nibFs4 .tPw) = (d.onBus bl false 2#4).lock := by
  obtain ⟨hif, hcycled, hpon, hpulse⟩ := hd
  calc d.followAll (pulse a bl false (2#4 ++ 0#4) .tPw)
      = (d.onBus bl false 2#4).latch false 2#4 := followAll_pulse hpulse a bl false 2#4 (.inl rfl)
    _ = (d.onBus bl false 2#4).handshake false 2#4 := Display.latch_beforeLock _ _ _ hif
    _ = (d.onBus bl false 2#4).lock := Display.handshake_locks _ hcycled hpon hseen

/-- R131: whatever has been latched before, the handshake locks. Between its latches the display waits for INIT as before. -/
theorem followAll_handshake {d : Display} (hd : AwaitsInit d) (a : Byte) (bl : Bool) :
    d.followAll (handshakeTrace a bl) = (d.onBus bl false 2#4).lock := by
  have awaits {e : Display} (he : AwaitsInit e) : AwaitsInit ((e.onBus bl false 3#4).remembered 3#4) := he
  have awaits₁ {e : Display} (he : AwaitsInit e) : AwaitsInit (e.follow (.d .tFs1)) := he
  have awaits₂ {e : Display} (he : AwaitsInit e) : AwaitsInit (e.follow (.d .tFs2)) := he
  have hfirst := awaits₁ (awaits hd)
  have hsecond := awaits₂ (awaits hfirst)
  rw [handshakeTrace, Display.followAll_append, followAll_nibFs8 hd a bl (.inl rfl), Display.followAll_cons,
    Display.followAll_append, followAll_nibFs8 hfirst a bl (.inl rfl), Display.followAll_cons,
    Display.followAll_append, followAll_nibFs8 hsecond a bl (.inr rfl), followAll_nibFs4 (awaits hsecond) rfl]
  rfl

/-- The controller is at a byte boundary after the lock (R132). -/
theorem aligned_lock {d : Display} (hd : d.pulse = .idle) : Aligned d.lock := ⟨rfl, rfl, rfl, hd⟩

/-! ## The configuration bytes -/

/-- The display after the four configuration bytes, if it was `d` (R133, R134, R136). -/
def Display.configured (d : Display) : Display :=
  { d.cleared with
    functionSet := some Config.cmdFunctionSet, displayCtrl := some Config.cmdDisplayCtrl
    entryMode := some Config.cmdEntryMode, pUndef := some false }

/-- R120. -/
def Display.tookFunctionSet (d : Display) : Display := { d with functionSet := some Config.cmdFunctionSet }

/-- R121. -/
def Display.tookDisplayCtrl (d : Display) : Display := { d with displayCtrl := some Config.cmdDisplayCtrl }

theorem byteDone_cmdFunctionSet (d : Display) : d.byteDone false Config.cmdFunctionSet = d.tookFunctionSet := rfl

theorem byteDone_cmdDisplayCtrl (d : Display) : d.byteDone false Config.cmdDisplayCtrl = d.tookDisplayCtrl := rfl

/-- R136: the last configuration byte ends `p_undef` when the others have been taken. -/
theorem byteDone_cmdEntryMode {d : Display}
    (h : (d.functionSet.isSome && d.displayCtrl.isSome && d.blanked) = true) :
    d.byteDone false Config.cmdEntryMode = { d with entryMode := some Config.cmdEntryMode, pUndef := some false } := by
  rw [Display.byteDone, if_neg Bool.false_ne_true]
  show { d with entryMode := _, pUndef := if _ then _ else _ } = _
  rw [if_pos h]

theorem followAll_configuration {d : Display} (hd : Aligned d) (a : Byte) (bl : Bool) :
    d.followAll (configurationTrace a bl) = (d.onByte bl false Config.cmdEntryMode).configured := by
  have hfunction {e : Display} (he : Aligned e) : Aligned (e.onByte bl false Config.cmdFunctionSet).tookFunctionSet :=
    ⟨he.pIf, rfl, he.pBusy, he.pulse⟩
  have hcontrol {e : Display} (he : Aligned e) : Aligned (e.onByte bl false Config.cmdDisplayCtrl).tookDisplayCtrl :=
    ⟨he.pIf, rfl, he.pBusy, he.pulse⟩
  have hclear {e : Display} (he : Aligned e) : Aligned (e.onByte bl false Config.cmdClear).cleared :=
    ⟨he.pIf, rfl, rfl, he.pulse⟩
  rw [configurationTrace, Display.followAll_append, followAll_byte hd, byteDone_cmdFunctionSet, Display.followAll_append,
    followAll_byte (hfunction hd), byteDone_cmdDisplayCtrl, Display.followAll_append, followAll_clear (hcontrol (hfunction hd)),
    followAll_byte (hclear (hcontrol (hfunction hd))), byteDone_cmdEntryMode rfl]
  simp only [Display.configured, Display.cleared, Display.tookFunctionSet, Display.tookDisplayCtrl, Display.onByte,
    Display.onBus]

/-- R131 to R136: a complete INIT after a power cycle and `T_PON`. -/
theorem inited_followAll_init {d : Display} (hd : AwaitsInit d) (a : Byte) (bl : Bool) :
    Inited bl (d.followAll (initTrace a bl)) := by
  obtain ⟨-, -, -, hpulse⟩ := id hd
  rw [initTrace_eq, Display.followAll_append, followAll_handshake hd,
    followAll_configuration (aligned_lock (d := d.onBus bl false 2#4) hpulse)]
  have hsaid : ((d.onBus bl false 2#4).lock.onByte bl false Config.cmdEntryMode).configured.pUndef ≠ some true :=
    fun h => nomatch (h : some false = some true)
  exact ⟨tracked_iff.2 ⟨⟨rfl, rfl, rfl, hpulse⟩, hsaid, rfl⟩, rfl, Display.pAc_eq hsaid, rfl,
    fun col row hc hr => shown_blank hsaid rfl rfl hc hr⟩

@[simp] theorem responded_lcd (st : Status) (tr : List Out) (rest : List (BitVec 2)) (s : State) :
    (responded st tr rest s).lcd = s.lcd.observeAll tr := rfl

@[simp] theorem responded_panel (st : Status) (tr : List Out) (rest : List (BitVec 2)) (s : State) :
    (responded st tr rest s).panel = s.panel.followAll tr := rfl

/-- Settles O52: the observer and the peripheral follow the trace of INIT. -/
theorem initBringsAFreshDisplayToFourBitMode : Obligations.InitBringsAFreshDisplayToFourBitMode := by
  intro a s rest hb hs ha
  have hlcd : s.lcd.observeAll (initTrace a s.bl) = s.lcd.followAll (initTrace a s.bl) :=
    observeAll_requestTrace s.lcd a s.bl (.init a)
  refine ⟨_, initRunsTheHandshake a s rest hb hs ha, ?_⟩
  simp only [responded_lcd, responded_panel, hlcd]
  exact ⟨fun hd => inited_followAll_init hd a s.bl, fun hd => inited_followAll_init hd a s.bl⟩

end Sys2Proof.Machine

/-! # The recovery of an undefined display

R136, R174: `p_undef` ends with the low nibble of the entry-mode command and with nothing else. The latch of that nibble is the
last write of INIT, so that it is still true when INIT has had fewer answers than it has writes. -/

namespace Sys2Proof.Machine

open Sys2Proof.Spec

/-! ## What does not end `p_undef` -/

theorem Display.commandByte_undefined {d : Display} (hd : d.pUndef = some true) {x : Byte} (hx : x ≠ Config.cmdEntryMode) :
    (d.commandByte x).pUndef = some true := by
  unfold Display.commandByte
  split
  · exact hd
  split
  · exact hd
  split
  · exact hd
  split
  · exact hd
  rw [Display.lose_pUndef, hd, keepUndef_true]

theorem Display.dataByte_undefined {d : Display} (hd : d.pUndef = some true) (x : Byte) :
    (d.dataByte x).pUndef = some true := by
  unfold Display.dataByte
  split <;> exact hd

/-- R132: the low nibble is that of the byte. -/
theorem lowNibble_append (h l : BitVec 4) : lowNibble (h ++ l) = l := BitVec.extractLsb'_append_eq_right

theorem Display.pair_undefined {d : Display} (hd : d.pUndef = some true) (rs : Bool) {n : BitVec 4}
    (hn : n ≠ lowNibble Config.cmdEntryMode) : (d.pair rs n).pUndef = some true := by
  unfold Display.pair
  split
  · exact hd
  next h _ _ =>
    have hx : h ++ n ≠ Config.cmdEntryMode := fun hx => hn (hx ▸ (lowNibble_append h n).symm)
    dsimp only
    split
    · exact Display.dataByte_undefined (d := { d with hiHalf := none, half := some .expectHigh }) hd _
    · exact Display.commandByte_undefined (d := { d with hiHalf := none, half := some .expectHigh }) hd hx
  · rw [Display.lose_pUndef, hd, keepUndef_true]

/-- The lock does not end it: it ends with the complete INIT. -/
theorem Display.handshake_undefined {d : Display} (hd : d.pUndef = some true) (rs : Bool) (n : BitVec 4) :
    (d.handshake rs n).pUndef = some true := by
  unfold Display.handshake
  split
  · exact hd
  split
  · show keepUndef d.pUndef = some true
    rw [hd, keepUndef_true]
  · exact hd

theorem Display.latch_undefined {d : Display} (hd : d.pUndef = some true) (rs : Bool) {n : BitVec 4}
    (hn : n ≠ lowNibble Config.cmdEntryMode) : (d.latch rs n).pUndef = some true := by
  unfold Display.latch
  split
  · exact Display.handshake_undefined hd rs n
  · exact Display.handshake_undefined hd rs n
  · split
    · exact Display.pair_undefined hd rs hn
    · exact Display.undefine_pUndef d

/-- Of two successive words: the second does not end a pulse that latches the low nibble of the entry-mode command (R129). -/
def NoEntryLatch (v w : Byte) : Prop := enOf w = true ∨ dataNibble v ≠ lowNibble Config.cmdEntryMode

theorem Display.deliver_undefined {d : Display} (hd : d.pUndef = some true) {w : Byte}
    (hw : ∀ v ∈ d.lastWord, NoEntryLatch v w) : (d.deliver w).pUndef = some true := by
  simp only [Display.deliver]
  split
  · exact hd
  · exact hd
  · exact hd
  · exact hd
  next v _ hen hv =>
    have hn : dataNibble v ≠ lowNibble Config.cmdEntryMode := (hw v hv).resolve_left (by simp [hen])
    exact Display.latch_undefined (d := { d with pBl := some (blOf w), lastWord := some w, pulse := .low }) hd _ hn
  · rfl
  · rfl
  · rfl

/-! ## The word on the expander -/

theorem Display.dataByte_lastWord (d : Display) (x : Byte) : (d.dataByte x).lastWord = d.lastWord := by
  unfold Display.dataByte
  split <;> rfl

theorem Display.commandByte_lastWord (d : Display) (x : Byte) : (d.commandByte x).lastWord = d.lastWord := by
  unfold Display.commandByte
  split_ifs <;> rfl

theorem Display.pair_lastWord (d : Display) (rs : Bool) (n : BitVec 4) : (d.pair rs n).lastWord = d.lastWord := by
  unfold Display.pair
  split
  · rfl
  · dsimp only
    split
    · exact Display.dataByte_lastWord _ _
    · exact Display.commandByte_lastWord _ _
  · rfl

theorem Display.handshake_lastWord (d : Display) (rs : Bool) (n : BitVec 4) :
    (d.handshake rs n).lastWord = d.lastWord := by
  unfold Display.handshake
  split_ifs <;> rfl

theorem Display.latch_lastWord (d : Display) (rs : Bool) (n : BitVec 4) : (d.latch rs n).lastWord = d.lastWord := by
  unfold Display.latch
  split
  · exact d.handshake_lastWord rs n
  · exact d.handshake_lastWord rs n
  · split
    · exact d.pair_lastWord rs n
    · rfl

theorem Display.deliver_lastWord (d : Display) (w : Byte) : (d.deliver w).lastWord = some w := by
  simp only [Display.deliver]
  split
  · rfl
  · rfl
  · rfl
  · rfl
  · exact Display.latch_lastWord _ _ _
  · rfl
  · rfl
  · rfl

theorem Display.elapse_undefined_lastWord (d : Display) (t : Delay) :
    (d.elapse t).pUndef = d.pUndef ∧ (d.elapse t).lastWord = d.lastWord := by
  cases t with
  | tPw | tPwFs3 =>
    simp only [Display.elapse, Display.hold]
    split <;> exact ⟨rfl, rfl⟩
  | tClr =>
    simp only [Display.elapse]
    split <;> exact ⟨rfl, rfl⟩
  | tFs1 | tFs2 | tFs3 | tPon => exact ⟨rfl, rfl⟩

/-! ## Events that do not end `p_undef` -/

theorem followAll_undefined {d : Display} (hd : d.pUndef = some true) {l : List Out} (hl : ∀ o ∈ l, o.isEvent = true)
    (hwords : (d.lastWord.toList ++ busWords l).IsChain NoEntryLatch) : (d.followAll l).pUndef = some true := by
  induction l generalizing d with
  | nil => exact hd
  | cons o l ih =>
    have hevent := hl o List.mem_cons_self
    have hrest : ∀ p ∈ l, p.isEvent = true := fun p hp => hl p (List.mem_cons_of_mem o hp)
    cases o with
    | w a b r =>
      cases r with
      | ok =>
        have hlast : ∀ v ∈ d.lastWord, NoEntryLatch v b := by
          intro v hv
          rw [Option.mem_def.1 hv] at hwords
          exact hwords.rel
        refine ih (Display.deliver_undefined hd hlast) hrest ?_
        rw [Display.follow, Display.deliver_lastWord]
        exact hwords.right_of_append
      | unreachable => cases hevent
      | ioFailure => cases hevent
    | d t =>
      obtain ⟨hundef, hlastWord⟩ := d.elapse_undefined_lastWord t
      exact ih (hundef.trans hd) hrest (by rw [Display.follow, hlastWord]; exact hwords)
    | _ => cases hevent

/-! ## The events before a write -/

theorem beforeWrite_prefix (n : Nat) (l : List Out) : beforeWrite n l <+: l := by
  induction l generalizing n with
  | nil => cases n <;> exact List.prefix_rfl
  | cons o l ih =>
    cases o with
    | w a b r =>
      cases n with
      | zero => exact List.nil_prefix
      | succ n => exact List.cons_prefix_cons.2 ⟨rfl, ih n⟩
    | _ => cases n <;> exact List.cons_prefix_cons.2 ⟨rfl, ih _⟩

theorem busWords_beforeWrite (n : Nat) (l : List Out) : busWords (beforeWrite n l) = (busWords l).take n := by
  induction l generalizing n with
  | nil => cases n <;> rfl
  | cons o l ih =>
    cases o with
    | w a b r =>
      cases n with
      | zero => rfl
      | succ n => exact congrArg (List.cons b) (ih n)
    | _ => cases n <;> exact ih _

/-- R77: the words of a pulse, whatever the address. -/
theorem busWords_pulse (a : Byte) (bl data : Bool) (n : Byte) (lowHold : Delay) :
    busWords (pulse a bl data n lowHold) =
      [n ||| control data bl, n ||| control data bl ||| Config.enMask, n ||| control data bl] := rfl

/-- In INIT only the last write latches the low nibble of the entry-mode command. -/
theorem noEntryLatch_initTrace (a : Byte) (bl : Bool) : ((busWords (initTrace a bl)).take 35).IsChain NoEntryLatch := by
  unfold NoEntryLatch
  simp only [initTrace, byte, nibble, busWords_append, busWords_pulse, busWords]
  revert bl
  decide

/-- R136: as long as INIT has not made its last write, an undefined display stays undefined. -/
theorem undefined_before_last_write {d : Display} (hd : d.pUndef = some true) (hlast : d.lastWord = none) (addr a : Byte)
    (bl : Bool) {n : Nat} (hn : n < 36) :
    (d.followAll (beforeWrite n (requestTrace a bl (.init addr)))).pUndef = some true ∧
      (d.observeAll (beforeWrite n (requestTrace a bl (.init addr)))).pUndef = some true := by
  have hevents : ∀ o ∈ beforeWrite n (requestTrace a bl (.init addr)), o.isEvent = true := fun o ho =>
    isEvent_requestTrace a bl (.init addr) o ((beforeWrite_prefix n _).subset ho)
  have hchain := noEntryLatch_initTrace a bl
  have htake : busWords (beforeWrite n (requestTrace a bl (.init addr))) = ((busWords (initTrace a bl)).take 35).take n := by
    rw [busWords_beforeWrite, requestTrace, List.take_take, Nat.min_eq_left (Nat.le_of_lt_succ hn)]
  have hundef := followAll_undefined hd hevents (by rw [hlast, htake]; exact hchain.take n)
  exact ⟨hundef, by rw [observeAll_eq_followAll d hevents, hundef]⟩

/-! ## The recovery -/

/-- What the host's power cycle, reset of the block and `T_PON` make of the peripheral (R128, R166, R168). -/
def Display.restarted (d : Display) : Display := d.powerOn.elapse .tPon

/-- What they make of its observer, which the reset leaves knowing nothing (R128). -/
def Display.restartedObserver (d : Display) : Display := d.powerOn.blockReset.elapse .tPon

theorem restarted_waits (d : Display) :
    AwaitsInit d.restarted ∧ d.restarted.lastWord = none ∧ d.restarted.pUndef = keepUndef d.pUndef :=
  ⟨⟨(nofun : PIf.ambiguous ≠ .fourBit), rfl, rfl, rfl⟩, rfl, rfl⟩

theorem restartedObserver_waits (d : Display) :
    AwaitsInit d.restartedObserver ∧ d.restartedObserver.lastWord = none ∧
      d.restartedObserver.pUndef = keepUndef (keepUndef d.pUndef) :=
  ⟨⟨(nofun : PIf.unknown ≠ .fourBit), rfl, rfl, rfl⟩, rfl, rfl⟩

/-- The state after the power cycle, the reset and the `T_PON` wait, with the inputs `next` to come. -/
structure Restarted (next : List Input) (s t : State) : Prop where
  busy : t.busy = false
  phase : t.phase = .uninitialized
  bl : t.bl = Config.blReset
  answers : t.answers = s.answers
  inputs : t.inputs = next
  lcd : t.lcd = s.lcd.restartedObserver
  panel : t.panel = s.panel.restarted

theorem exists_restarted {s : State} {next : List Input} (hb : s.busy = false) (ht : s.tx = none)
    (hs : s.inputs = .powerCycle :: .reset :: .hostWait .tPon :: next) :
    ∃ s₁ s₂ s₃, step s = .next s₁ ∧ step s₁ = .next s₂ ∧ step s₂ = .next s₃ ∧ Restarted next s s₃ := by
  have hpower := Takes.powerCycle.step_eq hb hs
  have hreset := (resetInputRestoresTheRegisters
    ({ s with inputs := .reset :: .hostWait .tPon :: next }.emit .power) _ rfl).1 hb ht
  exact ⟨_, _, _, hpower, hreset, (Takes.hostWait .tPon).step_eq rfl rfl, rfl, rfl, rfl, rfl, rfl, rfl, rfl⟩

theorem staysUndefined_of_imp {d d' : Display} (h : d.pUndef = some true → d'.pUndef = some true) : StaysUndefined d d' :=
  fun hd => ⟨h hd, silent_of_undefined (h hd)⟩

/-- INIT that has had `n` answers, fewer than its 36, and no more. -/
theorem exists_exec_init_unfinished (a : Byte) {s : State} (hb : s.busy = false) (hs : s.phase = .uninitialized) {n : Nat}
    (hn : n < 36) (ha : s.answers = List.replicate n 0) (hlcd : s.lcd.lastWord = none) (hpanel : s.panel.lastWord = none) :
    ∃ u, exec (.init a) s = .next u ∧ (s.lcd.pUndef = some true → u.lcd.pUndef = some true) ∧
      (s.panel.pUndef = some true → u.panel.pUndef = some true) :=
  ⟨_, unansweredWriteLeavesTheBlockBusy (.init a) s n hb (decide_eq_true hs) hn ha,
    fun hd => (undefined_before_last_write hd hlcd a _ _ hn).2, fun hd => (undefined_before_last_write hd hpanel a _ _ hn).1⟩

/-- Settles O53: the three inputs leave both displays waiting for INIT, with a true `p_undef` still true; it stays so as long as
INIT lacks an answer (`undefined_before_last_write`), and ends with the complete INIT (`inited_followAll_init`). -/
theorem recoveryTakesAPowerCycleAndInit : Obligations.RecoveryTakesAPowerCycleAndInit := by
  intro a s rest more hb ht ha hs
  obtain ⟨s₁, s₂, s₃, h₁, h₂, h₃, hrestarted⟩ := exists_restarted hb ht hs
  obtain ⟨hlcdWaits, hlcdWord, hlcdUndef⟩ := restartedObserver_waits s.lcd
  obtain ⟨hpanelWaits, hpanelWord, hpanelUndef⟩ := restarted_waits s.panel
  rw [← hrestarted.lcd] at hlcdWaits hlcdWord hlcdUndef
  rw [← hrestarted.panel] at hpanelWaits hpanelWord hpanelUndef
  have hlcdStays : s.lcd.pUndef = some true → s₃.lcd.pUndef = some true := fun h => by rw [hlcdUndef, h]; rfl
  have hpanelStays : s.panel.pUndef = some true → s₃.panel.pUndef = some true := fun h => by rw [hpanelUndef, h]; rfl
  have hinit := (stepRunsTheDecodedInstruction s₃ rest hrestarted.busy).1 _ (.init a) hrestarted.inputs
    (congrArg Except.ok (decodeRequest_requestWord rfl rfl))
  obtain ⟨t, ht, hlcdInited, hpanelInited⟩ := initBringsAFreshDisplayToFourBitMode a { s₃ with inputs := rest } more
    hrestarted.busy hrestarted.phase (hrestarted.answers.trans ha)
  refine ⟨s₁, s₂, s₃, t, h₁, h₂, h₃, hinit.trans ht, staysUndefined_of_imp hlcdStays, staysUndefined_of_imp hpanelStays,
    fun n hn => ?_, hrestarted.bl ▸ hlcdInited hlcdWaits, hrestarted.bl ▸ hpanelInited hpanelWaits⟩
  obtain ⟨u, hu, hlcd, hpanel⟩ :=
    exists_exec_init_unfinished a (s := { s₃ with inputs := rest, answers := List.replicate n 0 }) hrestarted.busy
      hrestarted.phase hn rfl hlcdWord hpanelWord
  exact ⟨u, hu, staysUndefined_of_imp fun h => hlcd (hlcdStays h), staysUndefined_of_imp fun h => hpanel (hpanelStays h)⟩

end Sys2Proof.Machine

/-! # What the controller assembles from a run

R129, R132, R137: each nibble pulse in the stream of words is one latch, each byte write a pair of them, and a backlight word
none. -/

namespace Sys2Proof.Machine

open Sys2Proof.Spec

/-! ## The latches of a stream -/

/-- A word with enable low ends no pulse of the words after it. -/
theorem latches_cons_of_low {v : Byte} (hv : enOf v = false) (l : List Byte) : latches (v :: l) = latches l := by
  cases l with
  | nil => rfl
  | cons w rest => simp [latches, hv]

theorem latches_cons_of_fall {v w : Byte} (hv : enOf v = true) (hw : enOf w = false) (l : List Byte) :
    latches (v :: w :: l) = (rsOf v, dataNibble v) :: latches (w :: l) := by
  simp [latches, hv, hw]

theorem latches_pulse (a : Byte) (bl data : Bool) (n : BitVec 4) (lowHold : Delay) (l : List Byte) :
    latches (busWords (pulse a bl data (n ++ 0#4) lowHold) ++ l) = (data, n) :: latches l := by
  have hlow : enOf (packWriteWord n bl false data) = false := enOf_packWriteWord n bl false data
  rw [pulse_eq]
  show latches (packWriteWord n bl false data :: packWriteWord n bl true data :: packWriteWord n bl false data :: l) = _
  rw [latches_cons_of_low hlow, latches_cons_of_fall (enOf_packWriteWord n bl true data) hlow, latches_cons_of_low hlow,
    rsOf_packWriteWord, dataNibble_packWriteWord]

/-- The latches by which a byte is sent, R36, R79. -/
def byteLatches (c : Bool × Byte) : List (Bool × BitVec 4) := [(c.1, dataNibble c.2), (c.1, lowNibble c.2)]

theorem latches_byte (a : Byte) (bl data : Bool) (x : Byte) (l : List Byte) :
    latches (busWords (byte a bl data x) ++ l) = byteLatches (data, x) ++ latches l := by
  rw [byte_eq, busWords_append, List.append_assoc, latches_pulse, latches_pulse]
  rfl

/-- R132: the latches of bytes are paired to the bytes. -/
theorem pairUp_byteLatches (l : List (Bool × Byte)) : pairUp (l.flatMap byteLatches) = l := by
  induction l with
  | nil => rfl
  | cons c l ih =>
    obtain ⟨data, x⟩ := c
    show (data, dataNibble x ++ lowNibble x) :: pairUp (l.flatMap byteLatches) = _
    rw [ih, dataNibble_append_lowNibble]

/-- The single nibbles with which a complete INIT begins, R88, R89. -/
def handshakeNibbles : List (BitVec 4) :=
  [dataNibble Config.nibFs8, dataNibble Config.nibFs8, dataNibble Config.nibFs8, dataNibble Config.nibFs4]

/-- The bytes with which it goes on, R90. -/
def configurationBytes : List (Bool × Byte) :=
  [(false, Config.cmdFunctionSet), (false, Config.cmdDisplayCtrl), (false, Config.cmdClear), (false, Config.cmdEntryMode)]

/-- A wait puts no word on the bus. -/
theorem busWords_wait (t : Delay) (l : List Out) : busWords (.d t :: l) = busWords l := rfl

theorem latches_handshakeTrace (a : Byte) (bl : Bool) (l : List Byte) :
    latches (busWords (handshakeTrace a bl) ++ l) = handshakeNibbles.map (false, ·) ++ latches l := by
  have hfs8 (lowHold : Delay) (l : List Byte) : latches (busWords (pulse a bl false Config.nibFs8 lowHold) ++ l) =
      (false, dataNibble Config.nibFs8) :: latches l := latches_pulse a bl false 3#4 lowHold l
  have hfs4 : latches (busWords (pulse a bl false Config.nibFs4 .tPw) ++ l) = (false, dataNibble Config.nibFs4) :: latches l :=
    latches_pulse a bl false 2#4 .tPw l
  simp only [handshakeTrace, busWords_append, busWords_wait, List.append_assoc, hfs8, hfs4]
  rfl

theorem latches_clearTrace (a : Byte) (bl : Bool) (l : List Byte) :
    latches (busWords (clearTrace a bl) ++ l) = byteLatches (false, Config.cmdClear) ++ latches l := by
  rw [clearTrace, busWords_append, List.append_assoc]
  exact latches_byte a bl false Config.cmdClear l

theorem latches_initTrace (a : Byte) (bl : Bool) (l : List Byte) :
    latches (busWords (initTrace a bl) ++ l) =
      handshakeNibbles.map (false, ·) ++ (configurationBytes.flatMap byteLatches ++ latches l) := by
  rw [initTrace_eq, configurationTrace]
  simp only [busWords_append, List.append_assoc, latches_handshakeTrace, latches_byte, latches_clearTrace]
  rfl

/-- R137: every request but INIT sends the bytes it says, each as a byte write. -/
theorem latches_requestTrace {i : Instr} (hi : i.isInit = false) (a : Byte) (bl : Bool) (l : List Byte) :
    latches (busWords (requestTrace a bl i) ++ l) = (controllerBytes i).flatMap byteLatches ++ latches l := by
  have hbacklight : latches (backlightWord bl :: l) = latches l :=
    latches_cons_of_low (by cases bl <;> rfl) l
  cases i with
  | init _ => cases hi
  | clear => exact latches_clearTrace a bl l
  | setCursor col row => exact latches_byte a bl false _ l
  | putc code => exact latches_byte a bl true code l
  | backlightOn | backlightOff => exact hbacklight
  | _ => rfl

/-! ## A run of requests, all answers Ok -/

/-- What is permitted depends on the phase alone (R158). -/
theorem permitted_congr {s t : State} (h : s.phase = t.phase) (i : Instr) : permitted s i = permitted t i := by
  cases i <;> simp only [permitted, h]

theorem isInit_eq_false_of_permitted {s : State} {i : Instr} (hs : s.phase = .configured) (hp : permitted s i = true) :
    i.isInit = false := by
  refine isInit_eq_false fun a ha => ?_
  subst ha
  rw [of_decide_eq_true hp] at hs
  cases hs

theorem serve_permitted_all_ok_record {i : Instr} {s : State} {rest : List (BitVec 2)} (hp : permitted s i = true)
    (ha : s.answers = List.replicate (writeCount i) 0 ++ rest) :
    (serve i s).out = s.out ++ (requestTrace (setUp i s).addr (setUp i s).bl i ++ [.resp .ok]) := by
  obtain ⟨-, hout, -, -⟩ := setUp_ports i s
  rw [serve_permitted_all_ok hp ha, ← hout, ← List.append_assoc]
  rfl

/-- A response puts no word on the bus. -/
theorem latches_record (tr tr' : List Out) (st : Status) :
    latches (busWords (tr ++ [.resp st] ++ tr')) = latches (busWords tr ++ busWords tr') := by
  rw [List.append_assoc, busWords_append]
  rfl

theorem exists_execAll_configured {ops : List Instr} {s : State} {rest : List (BitVec 2)} (hb : s.busy = false)
    (hs : s.phase = .configured) (hp : ∀ i ∈ ops, permitted s i = true)
    (ha : s.answers = List.replicate (writeCounts ops) 0 ++ rest) :
    ∃ t tr, execAll ops s = .next t ∧ t.out = s.out ++ tr ∧
      latches (busWords tr) = (ops.flatMap controllerBytes).flatMap byteLatches := by
  induction ops generalizing s with
  | nil => exact ⟨s, [], rfl, (List.append_nil _).symm, rfl⟩
  | cons i ops ih =>
    have hi := hp i List.mem_cons_self
    rw [writeCounts_cons, ← List.replicate_append_replicate, List.append_assoc] at ha
    have hserve := serve_permitted_all_ok hi ha
    have hphase : (serve i s).phase = .configured := (serve_request_configured (isRequest_of_permitted hi) hs).1
    obtain ⟨t, tr, hrun, htr, hlatches⟩ := ih (s := serve i s) (by rw [hserve]; rfl) hphase
      (fun j hj => (permitted_congr (hphase.trans hs.symm) j).trans (hp j (List.mem_cons_of_mem i hj))) (by rw [hserve]; rfl)
    refine ⟨t, requestTrace (setUp i s).addr (setUp i s).bl i ++ [.resp .ok] ++ tr,
      (execAll_cons (exec_idle i s hb) ops).trans hrun, ?_, ?_⟩
    · rw [htr, serve_permitted_all_ok_record hi ha, List.append_assoc]
    · rw [latches_record, latches_requestTrace (isInit_eq_false_of_permitted hs hi), hlatches, List.flatMap_cons,
        List.flatMap_append]

/-- R132: the stream of a run that begins with INIT, by its latches. -/
theorem streamBytes_eq {ws : List Byte} {l : List (Bool × Byte)}
    (h : latches ws = handshakeNibbles.map (false, ·) ++ l.flatMap byteLatches) : streamBytes ws = (handshakeNibbles, l) := by
  rw [streamBytes, h]
  exact congrArg (Prod.mk _) (pairUp_byteLatches l)

/-- Settles O51: the latches of INIT (`latches_initTrace`), and after them those of the requests (`exists_execAll_configured`). -/
theorem controllerAssemblesWhatWasRequested : Obligations.ControllerAssemblesWhatWasRequested := by
  intro a ops s rest hb hs hp ha
  rw [← List.replicate_append_replicate, List.append_assoc] at ha
  have hi : permitted s (.init a) = true := decide_eq_true hs
  have hserve := serve_permitted_all_ok hi ha
  obtain ⟨t, tr, hrun, htr, hlatches⟩ := exists_execAll_configured (s := serve (.init a) s) (ops := ops) (by rw [hserve]; rfl)
    (by rw [hserve]; rfl) (fun i hi => (permitted_congr (by rw [hserve]; rfl) i).trans (hp i hi)) (by rw [hserve]; rfl)
  refine ⟨t, initTrace a s.bl ++ [.resp .ok] ++ tr, (execAll_cons (exec_idle _ s hb) ops).trans hrun, ?_, ?_⟩
  · rw [htr, serve_permitted_all_ok_record hi ha, List.append_assoc]
    rfl
  · refine streamBytes_eq ?_
    rw [latches_record, latches_initTrace, hlatches, List.flatMap_append]
    rfl

end Sys2Proof.Machine

/-! # How a request and a busy block end

Against any answers a permitted request has one of three outcomes, each known as a whole next state: all its writes are
answered Ok, one of them fails, or the answers run out. What waits is a fixed point of the step (U8). -/

namespace Sys2Proof.Machine

open Sys2Proof.Spec

/-! ## A bus error -/

/-- Settles O23: the play of the request fails at that write (`serve_permitted_fails`). -/
theorem firstBusErrorEndsTheOperation : Obligations.FirstBusErrorEndsTheOperation := by
  intro i s n c rest hb hp hn hc ha
  rw [exec_idle i s hb, serve_permitted_fails hp hn hc ha]

/-! ## The three outcomes -/

/-- What the transport answers to `count` writes: Ok to all of them, an error after `n` of them, or no more after `n`. -/
inductive Answered (count : Nat) : List (BitVec 2) → Prop
  | allOk (rest : List (BitVec 2)) : Answered count (List.replicate count 0 ++ rest)
  | fails {n : Nat} {c : BitVec 2} (rest : List (BitVec 2)) (hn : n < count) (hc : TxResult.ofCode c ≠ .ok) :
      Answered count (List.replicate n 0 ++ c :: rest)
  | runsOut {n : Nat} (hn : n < count) : Answered count (List.replicate n 0)

/-- One more Ok before the others. -/
theorem Answered.cons_ok {count : Nat} {as : List (BitVec 2)} (h : Answered count as) : Answered (count + 1) (0 :: as) := by
  cases h with
  | allOk rest => exact .allOk rest
  | fails rest hn hc => exact .fails rest (Nat.succ_lt_succ hn) hc
  | runsOut hn => exact .runsOut (Nat.succ_lt_succ hn)

/-- There is no fourth case: only the code 0 is Ok (R32). -/
theorem Answered.exhaustive (count : Nat) (as : List (BitVec 2)) : Answered count as := by
  induction count generalizing as with
  | zero => exact .allOk as
  | succ count ih =>
    cases as with
    | nil => exact .runsOut (n := 0) count.succ_pos
    | cons c cs =>
      by_cases hc : TxResult.ofCode c = .ok
      · rw [eq_zero_of_ofCode_ok hc]
        exact (ih cs).cons_ok
      · exact .fails (n := 0) cs count.succ_pos hc

/-- A permitted request waits, or it ends with the status of an answer (R140, R141, R183). -/
theorem busy_or_status_of_permitted {i : Instr} {s t : State} (hb : s.busy = false) (hp : permitted s i = true)
    (hexec : exec i s = .next t) : t.busy = true ∨ ∃ r : TxResult, t.result = some r.status := by
  have hanswered := Answered.exhaustive (writeCount i) s.answers
  generalize ha : s.answers = as at hanswered
  cases hanswered with
  | allOk rest =>
    rw [exec_idle i s hb, serve_permitted_all_ok hp ha] at hexec
    cases hexec
    exact .inr ⟨.ok, rfl⟩
  | fails rest hn hc =>
    rw [exec_idle i s hb, serve_permitted_fails hp hn hc ha] at hexec
    cases hexec
    exact .inr ⟨_, rfl⟩
  | runsOut hn =>
    rw [unansweredWriteLeavesTheBlockBusy i s _ hb hp hn ha] at hexec
    cases hexec
    exact .inl rfl

theorem TxResult.status_ne_contractViolation (r : TxResult) : r.status ≠ .contractViolation := by
  cases r <;> decide

/-- Settles O19: what is refused is the violation (`exec_refused`); a permitted request leaves the block busy or gives the
status of an answer, and the violation does neither. -/
theorem requestsNotPermittedViolateTheContract : Obligations.RequestsNotPermittedViolateTheContract := by
  refine fun i s hr hb => ⟨fun hexec => Bool.eq_false_iff.2 fun hp => ?_, exec_refused hr hb⟩
  rcases busy_or_status_of_permitted hb hp hexec with hbusy | ⟨r, hresult⟩
  · cases hbusy
  · exact r.status_ne_contractViolation (Option.some.inj hresult).symm

/-! ## A block that waits -/

theorem State.give_nil (s : State) : s.give [] = s := by
  simp [State.give, State.outside]

/-- An operation that waits, and the host after it, do nothing more without another answer. -/
theorem carryOn_serve_of_busy (i : Instr) {s : State} (hb : s.busy = false) (hw : (serve i s).busy = true) :
    (serve i s).carryOn = serve i s := by
  cases hp : i.isPseudo with
  | true =>
    rw [serve_pseudo hp] at hw ⊢
    simpa only [State.give_nil] using carryOn_runTodo_give (fun j hj => isRequest_of_mem_expand hp hj) [] hb hw
  | false =>
    have hresume : (serve i s).resume = serve i s := by simpa only [State.give_nil] using serve_give hp s []
    rw [carryOn_eq_hostNext, hresume, if_pos hw]

/-- Settles O25: without an input a busy block goes on with its operation, which waits (`carryOn_serve_of_busy`). -/
theorem unansweredBlockStaysAsItIs : Obligations.UnansweredBlockStaysAsItIs := by
  intro i s t hb hinputs hexec hw
  rw [exec_idle i s hb] at hexec
  cases hexec
  have hnone : (serve i s).inputs = [] := (grown_serve i s).inputs.trans hinputs
  rw [step_busy hw, stepBusy_eq_carryOn (by simp [hnone]), carryOn_serve_of_busy i hb hw]

end Sys2Proof.Machine

/-! # The least waiting of a request, and the reset of the block

R179: the waits of a request's trace add up, and each takes at least its minimum. R163, R165, R166: what a reset leaves, of an
idle block and of one whose operation it cuts. -/

namespace Sys2Proof.Machine

open Sys2Proof.Spec

/-! ## The waits of a trace -/

/-- R7: a parameter is at least its minimum, and a wait that takes two of them at least the sum (R76). -/
theorem floorNs_le_ns (t : Delay) : Config.floorNs t ≤ Config.ns t := by
  cases t with
  | tPwFs3 => exact (Nat.le_add_right _ _).trans (Nat.le_add_right _ _)
  | _ => exact Nat.le_add_right _ _

@[simp] theorem waitedNs_append (l l' : List Out) : waitedNs (l ++ l') = waitedNs l + waitedNs l' := by
  induction l with
  | nil => exact (Nat.zero_add _).symm
  | cons o l ih =>
    cases o with
    | d t => rw [List.cons_append, waitedNs, waitedNs, ih, Nat.add_assoc]
    | _ => exact ih

@[simp] theorem waitedNs_wait (t : Delay) : waitedNs [.d t] = Config.ns t := rfl

/-- R77: the hold with enable high and the low hold. -/
@[simp] theorem waitedNs_pulse (a : Byte) (bl data : Bool) (n : Byte) (lowHold : Delay) :
    waitedNs (pulse a bl data n lowHold) = Config.ns .tPw + Config.ns lowHold := rfl

@[simp] theorem waitedNs_nibble (a : Byte) (bl data : Bool) (n : Byte) :
    waitedNs (nibble a bl data n) = 2 * Config.ns .tPw := by
  rw [nibble, waitedNs_pulse, Nat.two_mul]

@[simp] theorem waitedNs_byte (a : Byte) (bl data : Bool) (x : Byte) : waitedNs (byte a bl data x) = 4 * Config.ns .tPw := by
  rw [byte, waitedNs_append, waitedNs_nibble, waitedNs_nibble]
  omega

/-- R86: twelve nibbles, and the settle delays. -/
theorem waitedNs_initTrace (a : Byte) (bl : Bool) :
    waitedNs (initTrace a bl) =
      23 * Config.ns .tPw + Config.ns .tPwFs3 + Config.ns .tFs1 + Config.ns .tFs2 + Config.ns .tClr := by
  simp only [initTrace, waitedNs_append, waitedNs_wait, waitedNs_pulse, waitedNs_nibble, waitedNs_byte]
  omega

/-- R179, for the trace of every row. -/
theorem minimumNs_le_waitedNs_requestTrace (a : Byte) (bl : Bool) (i : Instr) :
    minimumNs i ≤ waitedNs (requestTrace a bl i) := by
  have hPw : 100000 ≤ Config.ns .tPw := floorNs_le_ns .tPw
  have hClr : 1520000 ≤ Config.ns .tClr := floorNs_le_ns .tClr
  cases i with
  | init _ =>
    have hPwFs3 : 100000 ≤ Config.ns .tPwFs3 := floorNs_le_ns .tPwFs3
    have hFs1 : 4100000 ≤ Config.ns .tFs1 := floorNs_le_ns .tFs1
    have hFs2 : 100000 ≤ Config.ns .tFs2 := floorNs_le_ns .tFs2
    rw [minimumNs, requestTrace, waitedNs_initTrace]
    omega
  | clear =>
    rw [minimumNs, requestTrace, clearTrace, waitedNs_append, waitedNs_byte, waitedNs_wait]
    omega
  | setCursor _ _ | putc _ =>
    rw [minimumNs, requestTrace, waitedNs_byte]
    omega
  | _ => exact Nat.zero_le _

/-- Settles O36: the request adds its trace, which waits long enough, and its response, which does not wait. -/
theorem requestsWaitLongEnough : Obligations.RequestsWaitLongEnough := by
  intro i s rest hb hp ha
  refine ⟨_, _, exec_idle i s hb, serve_permitted_all_ok_record hp ha, ?_⟩
  rw [waitedNs_append]
  exact (minimumNs_le_waitedNs_requestTrace _ _ i).trans (Nat.le_add_right _ _)

/-! ## A reset of an idle block -/

theorem keepUndef_ne_false (u : Option Bool) : keepUndef u ≠ some false := by
  unfold keepUndef
  split <;> simp

/-- R128: whether or not `p_undef` was true, the observer has forgotten what it would say. -/
theorem silent_blockReset (d : Display) : Silent d.blockReset := by
  by_cases hu : d.blockReset.pUndef = some true
  · exact silent_of_undefined hu
  · obtain ⟨hhalf, hhi, hac, hcells⟩ := d.blockReset.all_said hu
    refine ⟨hhalf, hhi, hac, fun a => ?_⟩
    have hblanked : d.blockReset.blanked = false := rfl
    have hread : d.blockReset.pDdram.read a = none := by rw [hcells]; rfl
    simp [Display.cell, hread, hblanked]

/-- Settles O41: the record gains a reset that cuts nothing (`resetInputRestoresTheRegisters`), at which the peripheral stays as
it is and its observer forgets. -/
theorem resetKeepsThePeripheral : Obligations.ResetKeepsThePeripheral := by
  intro s rest hb ht hs
  exact ⟨_, (resetInputRestoresTheRegisters s rest hs).1 hb ht, rfl, rfl, rfl, rfl, silent_blockReset s.lcd,
    keepUndef_ne_false s.lcd.pUndef⟩

/-! ## A reset that cuts an operation -/

theorem wellFormed_of_permitted {i : Instr} {s : State} (h : permitted s i = true) : i.wellFormed = true := by
  cases i with
  | reserved w => cases h
  | _ => rfl

/-- The answers for a list of events are those for its first `k` and those for the rest. -/
theorem replicate_writesOf_take_drop (l : List Micro) (k : Nat) (rest : List (BitVec 2)) :
    List.replicate (writesOf l) 0 ++ rest =
      List.replicate (writesOf (l.take k)) 0 ++ (List.replicate (writesOf (l.drop k)) 0 ++ rest) := by
  have hsum : writesOf l = writesOf (l.take k) + writesOf (l.drop k) := by
    rw [writesOf, writesOf, writesOf, ← List.countP_append, List.take_append_drop]
  rw [hsum, ← List.replicate_append_replicate, List.append_assoc]

/-- What the acceptance of a request writes, a reset sets back. -/
theorem resetRegisters_accepted (i : Instr) (extra : List Out) (as : List (BitVec 2)) (s : State) :
    resetRegisters extra { (setUp i s).accept i with answers := as } = resetRegisters extra { s with answers := as } := by
  cases i <;> rfl

theorem okTrace_take (a : Byte) (bl : Bool) (l : List Micro) (k : Nat) :
    okTrace a bl (l.take k) = (okTrace a bl l).take k := List.map_take

/-- A reset after a play of a running operation that waits for no answer (R163, R165). -/
theorem blockReset_played {s : State} (hb : s.busy = true) (ht : s.tx = none) (p : Play) :
    (s.played p).blockReset = resetRegisters (p.out ++ [.reset true]) { s with answers := p.rest } := by
  have hidle : (s.played p).tx = none := by simp [State.played, ht]
  have hdrop : (s.played p).dropHanded = s.played p := by rw [State.dropHanded, hidle]
  have hbusy : (s.played p).busy = true := hb
  rw [State.blockReset, hdrop, hbusy, resetRegisters, Display.observeAll_append, Display.followAll_append, ← List.append_assoc]
  rfl

/-- A request cut inside its event list has performed the events up to there, and no more. -/
theorem cutRequest_of_lt {i : Instr} {s : State} {k : Nat} (hu : (acceptRequest i s).useq = .running i 0)
    (hk : k < (eventList i).length) :
    s.cutRequest i k = (runEvents ((eventList i).take k) (acceptRequest i s)).blockReset := by
  have hr : (acceptRequest i s).remaining = eventList i := by rw [State.remaining, hu]; rfl
  simp only [State.cutRequest, hr, if_neg (Nat.not_le.2 hk)]

/-- R165: a permitted request, all answers Ok, cut by reset after `k` of its events. -/
theorem cutRequest_permitted_all_ok {i : Instr} {s : State} {k : Nat} {rest : List (BitVec 2)} (hp : permitted s i = true)
    (ht : s.tx = none) (ha : s.answers = List.replicate (writeCount i) 0 ++ rest)
    (hk : k < (requestTrace (setUp i s).addr (setUp i s).bl i).length) :
    s.cutRequest i k =
      resetRegisters ((requestTrace (setUp i s).addr (setUp i s).bl i).take k ++ [.reset true])
        { s with answers := List.replicate (writesOf ((eventList i).drop k)) 0 ++ rest } := by
  have haccept := acceptRequest_permitted hp
  have htx : ((setUp i s).accept i).tx = none := by cases i <;> exact ht
  have hans : ((setUp i s).accept i).answers = List.replicate (writesOf ((eventList i).take k)) 0 ++
      (List.replicate (writesOf ((eventList i).drop k)) 0 ++ rest) := by
    rw [← replicate_writesOf_take_drop, writesOf_eventList (isRequest_of_permitted hp), ← ha]
    exact (setUp_ports i s).1
  rw [requestTrace_eq_okTrace hp] at hk ⊢
  rw [cutRequest_of_lt (by rw [haccept]; rfl) (by simpa [okTrace] using hk), haccept, runEvents_eq_play, hans, play_all_ok]
  refine (blockReset_played (s := (setUp i s).accept i) rfl htx _).trans ?_
  rw [resetRegisters_accepted, okTrace_take]
  rfl

/-- R136: whatever came before, a reset that cuts an operation leaves the controller undefined. -/
theorem lost_reset (d : Display) : Lost (d.follow (.reset true)) ∧ Lost (d.observe (.reset true)) :=
  ⟨⟨rfl, rfl, rfl⟩, rfl, rfl, rfl⟩

/-- Settles O42: the step is the cut of the request (`cutRequest_permitted_all_ok`), and the last entry of its record is a reset
during an operation (`lost_reset`). -/
theorem resetCutsTheOperation : Obligations.ResetCutsTheOperation := by
  intro i s k rest more hb ht hp ha hk hs
  have hdecode : decodeRequest (requestWord i) = i :=
    decodeRequest_requestWord (isRequest_of_permitted hp) (wellFormed_of_permitted hp)
  have hsetUp : setUp i { s with inputs := rest } = { setUp i s with inputs := rest } := by cases i <;> rfl
  have hstep := (Takes.cut (requestWord i) k).step_eq hb hs
  have hcut := cutRequest_permitted_all_ok (s := { s with inputs := rest }) ((permitted_congr rfl i).trans hp) ht ha
    (by rw [hsetUp]; exact hk)
  rw [hdecode, hcut, hsetUp] at hstep
  refine ⟨_, hstep, rfl, rfl, rfl, rfl, rfl, rfl, rfl, rfl, rfl, ?_, ?_⟩
  · rw [resetRegisters, Display.observeAll_append]
    exact (lost_reset _).2
  · rw [resetRegisters, Display.followAll_append]
    exact (lost_reset _).1

end Sys2Proof.Machine
